-- ==== Sys2Proof/Word.lean ====
section
/-! DEFINITION. The plain words of the DX16: bytes, 32-bit modular counts and the forward distance by which they
are compared (00_scope.md, section 4.2). -/

namespace Sys2Proof

/-- One byte of a packet, of a control line or of the stacked DRAM. -/
abbrev Byte := BitVec 8

/-- A run of bytes. -/
abbrev Bytes := List Byte

/-- A 32-bit modular count: an ISN, a slice timestamp, the output slice count O (R4, R5). -/
abbrev U32 := BitVec 32

/-- An input slice number (R4). -/
abbrev Isn := U32

/-- The forward distance from `a` to `b`, counted modulo 2^32 (00_scope.md, section 4.2). -/
def fwd (a b : U32) : Nat := (b - a).toNat

/-- `b` is after (later than, ahead of) `a`: the forward distance from `a` to `b` is 1 to 2^31 - 1. -/
def isAfter (b a : U32) : Bool := 1 ≤ fwd a b && fwd a b ≤ 2147483647

/-- `b` is `a` or lies after it. -/
def atOrAfter (b a : U32) : Bool := b == a || isAfter b a

/-- A count that holds at `top` instead of wrapping. -/
def satAdd (top n k : Nat) : Nat := min top (n + k)

end Sys2Proof
end

