-- ==== Sys2Proof/Syntax.lean ====
section
/-! DEFINITION. The commands of the DX16: one constructor of `Instr` per row of spec/opcode_table.json, with the
operands its rule gives it. A command is a step of the part: an event at one of its lines or ports, the expiry of one
of its timers, the arrival of one block's message at another, or an owner's taking of the request that a port has
routed to it. -/

namespace Sys2Proof

/-- A control port (R179). -/
inductive Port
  | a | b | n
  deriving DecidableEq, Repr

/-- One of the two serial control ports (R179). -/
inductive SerialPort
  | a | b
  deriving DecidableEq, Repr

/-- The serial port as a control port. -/
def SerialPort.port : SerialPort → Port
  | .a => .a
  | .b => .b

/-- What the stacked DRAM reports at the end of an access (R149, R155, R157). -/
inductive StoreReport
  /-- carried out; `units` units were read with a single-bit error and corrected (R149) -/
  | done (units : Nat)
  /-- met a maintenance interval, not carried out; `fault` when a FAULT is reported together with it (R155, R157) -/
  | retry (fault : Bool)
  /-- UNCORRECTABLE (R149) -/
  | fault
  deriving DecidableEq, Repr

/-- The commands, in the order of spec/opcode_table.json. -/
inductive Instr
  /-- Supply power comes up (R203). -/
  | powerOn
  /-- The reset line is asserted (R204). -/
  | resetLineAsserted
  /-- The reset line is released (R204). -/
  | resetLineReleased
  /-- A pulse on the house reference line (R8, R12). -/
  | linePulse
  /-- The loss watch expires (R10). -/
  | lossWatchExpiry
  /-- The free-run expiry (R11). -/
  | freeRunExpiry
  /-- The closing mark falls (R9). -/
  | closingMark
  /-- Media In delivers one packet, header and payload (R14). -/
  | mediaInPacket (packet : Bytes)
  /-- Media Out takes one packet (R146). -/
  | packetSent
  /-- One character is received on a serial port (R180). -/
  | serialCharacter (port : SerialPort) (char : Byte)
  /-- One datagram is received on Port N from a network address (R179, R180). -/
  | datagram (address : Nat) (content : Bytes)
  /-- The transmitter of a port finishes the line it is sending (R186). -/
  | replySent (port : Port)
  /-- The store reports the end of the access that was granted under `grant` (R154 to R158). -/
  | storeCompletion (grant : Nat) (report : StoreReport)
  /-- 2 ms have passed since the grant of the access at the store (R158, R161). -/
  | accessTimeout
  /-- The Hold Line takes the Cut Engine's disposition update (R54). -/
  | dispositionUpdate
  /-- The Cut Engine takes the Hold Line's answer (R70). -/
  | updateAnswer
  /-- The Hold Line takes a shed instruction (R56). -/
  | shedInstruction
  /-- The Pacing Controller takes the number shed (R102). -/
  | shedAnswer
  /-- The profile write finishes; `readsBack` when the slot reads back valid (R200). -/
  | saveComplete (readsBack : Bool)
  /-- 400 ms have passed since the save began (R200). -/
  | saveTimeout
  /-- The Cut Engine is reached by the DUMP that `port` routed to it (R78). -/
  | dump (port : Port)
  /-- MARK-IN (R72). -/
  | markIn (port : Port)
  /-- MARK-OUT (R73). -/
  | markOut (port : Port)
  /-- CUT (R76). -/
  | cut (port : Port)
  /-- AMEND (R80). -/
  | amend (port : Port)
  /-- REVOKE (R81). -/
  | revoke (port : Port)
  /-- CUTS (R89). -/
  | cuts (port : Port)
  /-- WATCH that defines (R171). -/
  | watch (port : Port)
  /-- WATCH with W= alone (R172). -/
  | watchReport (port : Port)
  /-- UNWATCH (R172). -/
  | unwatch (port : Port)
  /-- TARGET with HOW=GLIDE (R101). -/
  | targetGlide (port : Port)
  /-- TARGET with HOW=JUMP (R102). -/
  | targetJump (port : Port)
  /-- ENGAGE (R106). -/
  | engage (port : Port)
  /-- BYPASS (R104). -/
  | bypass (port : Port)
  /-- SLICE (R61). -/
  | slice (port : Port)
  /-- STATUS (R62). -/
  | status (port : Port)
  /-- WINDOW that defines (R164). -/
  | window (port : Port)
  /-- WINDOW with W= alone (R164). -/
  | windowReport (port : Port)
  /-- LOAD (R165). -/
  | load (port : Port)
  /-- CLEAR (R167). -/
  | clear (port : Port)
  /-- COUNTERS without CLEAR= (R192). -/
  | counters (port : Port)
  /-- COUNTERS with CLEAR= (R192). -/
  | countersClear (port : Port)
  /-- PORT-RESET (R193). -/
  | portReset (port : Port)
  /-- PARAM (R198). -/
  | param (port : Port)
  /-- SET of parameters (R196). -/
  | set (port : Port)
  /-- SET with STATION= (R197). -/
  | setStation (port : Port)
  /-- SAVE (R200). -/
  | save (port : Port)
  /-- PROFILE (R202). -/
  | profile (port : Port)
  /-- RESTART (R204). -/
  | restart (port : Port)
  /-- Supply power is lost (R201). -/
  | powerLoss
  deriving DecidableEq, Repr

end Sys2Proof
end

