-- ==== Sys2Proof/Decode.lean ====
section
/-! DEFINITION. The command a word spells. The DX16 has no instruction words: no row of spec/opcode_table.json has
bits, so no word spells a command. -/

namespace Sys2Proof

/-- The command that a word of `nbits` bits spells by the table's bits. No row of the table gives any. -/
def decodeTableWord (_nbits _w : Nat) : Option Instr := none

end Sys2Proof
end

