-- ==== Sys2Proof/Config.lean ====
section
/-! DEFINITION. What is fixed for the part: its capacities (00_scope.md, section 1.3), and the free values, which
the manual leaves open and which no proof can evaluate. -/

namespace Sys2Proof.Config

/-- Record slots of the hold line (R41). -/
def recordSlots : Nat := 4096
/-- The repeat inhibit guard is on from this record count (R59). -/
def repeatInhibitAt : Nat := 4000
/-- The shed demand guard is on from this record count (R60). -/
def shedDemandAt : Nat := 4088
/-- Pages of the page area (R46). -/
def pages : Nat := 3840
/-- Blocks of the cover area (R148). -/
def coverBlocks : Nat := 256
/-- Bytes of a page or a block (R148). -/
def pageBytes : Nat := 2097152
/-- The most video bytes of a slice (R1). -/
def maxVideo : Nat := 1966080
/-- The most caption bytes of a slice (R1). -/
def maxCaptions : Nat := 2048
/-- Offset of the captions in a page or block (R148). -/
def captionsAt : Nat := 122880
/-- Offset of the video in a page or block (R148). -/
def videoAt : Nat := 124928
/-- Offset of the descriptor in a cover block (R148). -/
def descriptorAt : Nat := 2097088
/-- Cuts the list holds (R64). -/
def maxCuts : Nat := 32
/-- Lines a port's request queue holds (R181). -/
def requestQueue : Nat := 8
/-- Characters of a line (R180). -/
def lineLength : Nat := 240
/-- Lines a port's notice queue holds (R189). -/
def noticeQueue : Nat := 32
/-- Entries of the station table (R183). -/
def stationEntries : Nat := 8
/-- Where the slip accumulator holds (R94). -/
def slipTop : Nat := 12287
/-- One slice of slip (R94). -/
def slipSlice : Nat := 4096
/-- From here on a correction is forced (R96, R97). -/
def slipForced : Nat := 8192
/-- Counters hold at this value (R191). -/
def counterTop : Nat := 4294967295

/-- Ticks of the model's clock in one nominal period of a slice rate. A tick is one third of a millisecond, the
largest unit in which every duration of R3, R7, R9, R158 and R200 is whole: 40 ms, 33 1/3 ms, 20 ms and 16 2/3 ms are
120, 100, 60 and 50 ticks. -/
def nominalPeriod (rate : Nat) : Nat := 3000 / rate
/-- Half a nominal period, after which the closing mark falls (R9). -/
def halfPeriod (rate : Nat) : Nat := 1500 / rate
/-- One and a half nominal periods, the length of the loss watch (R10). -/
def watchPeriod (rate : Nat) : Nat := 4500 / rate
/-- The 2 ms limit of a store access, in ticks (R158). -/
def accessLimit : Nat := 6
/-- The 400 ms limit of a save, in ticks (R200). -/
def saveLimit : Nat := 1200

/-- FREE VALUE (log entry 3). What a byte of the stacked DRAM holds after the `draw`-th write that did not end DONE:
the manual gives such a write's outcome and not what it leaves in the memory (R149, R158, R161). -/
opaque writeResidue : (draw index : Nat) → Byte

/-- FREE VALUE (log entry 4). The level, less one, at which a request acts whose station has left the station table
between the port's check and the taking of the request: R83 reads the level from the table as it stands when the
request is taken, where the station no longer is. The bound is R183's: a level is 1 to 15. -/
opaque levelOfAbsent : (station : Nat) → Fin 15

end Sys2Proof.Config
end

