-- ==== Sys2Proof/Machine/Types.lean ====
section
/-! DEFINITION. The data of each block of the DX16, one structure per block, in the manual's own terms. -/

namespace Sys2Proof.Machine

/-! ## Essence and timecode -/

/-- A timecode (R6). -/
structure Timecode where
  hours : Nat
  minutes : Nat
  seconds : Nat
  frames : Nat
  deriving DecidableEq, Repr, Inhabited

/-- The kinds of essence (R1). -/
inductive Kind
  | video | audio | caption
  deriving DecidableEq, Repr

/-- The essence of one slice: each kind a run of bytes, empty when absent; audio absent or whole (R1). -/
structure Essence where
  video : Bytes
  audio : Option Bytes
  captions : Bytes
  deriving DecidableEq, Repr, Inhabited

/-- No essence of any kind. -/
def Essence.empty : Essence := ⟨[], none, []⟩

/-- One sample frame: the samples of channels 1 to 16 at one index (R2). -/
abbrev Frame := List Int

/-! ## Period Timer -/

/-- The Period Timer (chapter 1, section 1.5). Times are ticks of the model's clock. -/
structure Timer where
  /-- LOCKED, or else HOLDOVER -/
  locked : Bool
  /-- a period has begun since the reset (R7) -/
  begun : Bool
  /-- time of the last reference pulse given -/
  lastPulse : Nat
  /-- count of the reference pulses given since the reset -/
  pulses : U32
  markPending : Bool
  markDue : Nat
  watchRuns : Bool
  watchDue : Nat
  freeRuns : Bool
  freeDue : Nat
  deriving DecidableEq, Repr

/-! ## Ingest Unit -/

/-- A byte range received, at the offset it arrived at; the bytes stored may be fewer than its length (R26, R29). -/
structure Range where
  off : Nat
  len : Nat
  bytes : Bytes
  deriving DecidableEq, Repr

/-- What a slot holds of one kind (R26). -/
structure KindBuf where
  total : Option Nat
  ranges : List Range
  rejected : Bool
  truncated : Bool
  deriving DecidableEq, Repr, Inhabited

/-- The states of a staging slot (R23). -/
inductive SlotState
  | free | gathering | writing
  deriving DecidableEq, Repr, Inhabited

/-- A staging slot (R23, R26). `kept` and `place` are those of the write in progress: the kept essence, and the page
(program) or the block (cover load). -/
structure StagingSlot where
  st : SlotState
  video : KindBuf
  audio : KindBuf
  caption : KindBuf
  tc : Option Timecode
  kept : Essence
  place : Nat
  deriving DecidableEq, Repr, Inhabited

/-- A position of a reassembly window (chapter 2). -/
structure Position where
  ts : U32
  draining : Bool
  slot : Option Nat
  refused : Bool
  deriving DecidableEq, Repr

/-- A record's condition (R41). -/
inductive Condition
  | intact | partialSlice | loss | damaged
  deriving DecidableEq, Repr

/-- Why a slice was lost (R31, R33). -/
inductive LossReason
  | missing | stagingFull | noPage
  deriving DecidableEq, Repr

/-- The program path of the Ingest Unit (chapter 2). -/
structure Ingest where
  /-- E, the expected timestamp, or unset -/
  expected : Option U32
  window : List Position
  /-- three program staging slots -/
  slots : List StagingSlot
  /-- the consecutive-early count -/
  early : Nat
  lossRun : Nat
  /-- condition and loss reason of the record closed last -/
  last : Option (Condition × Option LossReason)
  deriving DecidableEq, Repr

/-- States of the cover-load lane (section 2.7). -/
inductive LaneState
  | idle | waiting | running | finishing
  deriving DecidableEq, Repr

/-- The cover-load lane (section 2.7). -/
structure Lane where
  st : LaneState
  window : Nat
  stream : Nat
  count : Nat
  base : Nat
  /-- the lead-in timestamp t0, once fixed -/
  leadIn : Option U32
  /-- the lead-in position still stands at the front of the window (R37) -/
  leadInHeld : Bool
  /-- the lane's expected timestamp -/
  expected : U32
  positions : List Position
  /-- two lane staging slots -/
  slots : List StagingSlot
  /-- the clip index p -/
  clip : Nat
  faultMark : Bool
  deriving DecidableEq, Repr

/-! ## Hold Line -/

/-- Where a cover comes from (R41). -/
inductive CoverSource
  | silence | tone | window (n : Nat)
  deriving DecidableEq, Repr

/-- A record's disposition, with the cover source and video option of a COVER and the mute mask of a MUTE (R41).
Bit c - 1 of a mask is channel c. -/
inductive Disposition
  | keep
  | drop
  | cover (source : CoverSource) (withVideo : Bool)
  | mute (mask : BitVec 16)
  | shed
  deriving DecidableEq, Repr

/-- KEEP, COVER and MUTE slices are kept (00_scope.md, section 5). -/
def Disposition.kept : Disposition → Bool
  | .keep | .cover _ _ | .mute _ => true
  | .drop | .shed => false

/-- The disposition fields of a record (R41); `captions` is KEEP when true, REMOVE when false. -/
structure DispFields where
  disp : Disposition
  captions : Bool
  deriving DecidableEq, Repr

/-- Lifecycle of a record (R44). -/
inductive Lifecycle
  | writing | held | committed | emitting
  deriving DecidableEq, Repr

/-- One slice record (R41). -/
structure Rec where
  isn : Isn
  ts : Option U32
  tc : Option Timecode
  page : Option Nat
  videoBytes : Nat
  audio : Bool
  captBytes : Nat
  cond : Condition
  loss : Option LossReason
  quiet : Bool
  fields : DispFields
  /-- the deciding cut -/
  cut : Option Nat
  life : Lifecycle
  /-- the commit mark -/
  committed : Bool
  /-- the emission ended mark -/
  ended : Bool
  skipped : Bool
  edit : Byte
  /-- the error noticed mark -/
  noticed : Bool
  deriving DecidableEq, Repr

/-- The Hold Line (chapter 3). The held depth H, the record count, the amendable boundary A and the two guards are
computed from these fields (R49, R42, R53, R59, R60). -/
structure HoldLine where
  /-- oldest record first -/
  records : List Rec
  nextIsn : Isn
  freePool : List Nat
  commitPoint : Option Isn
  deriving DecidableEq, Repr

/-! ## Cut Engine -/

/-- The action of a cut, with its cover source and video option or its mute mask (R64). -/
inductive CutAction
  | drop
  | cover (source : CoverSource) (withVideo : Bool)
  | mute (mask : BitVec 16)
  deriving DecidableEq, Repr

/-- States of a listed cut (R64). -/
inductive CutState
  | opened | armed | active
  deriving DecidableEq, Repr

/-- What will fix an OUT that is pending (R64). -/
inductive Target
  | isn (n : Isn)
  | tc (t : Timecode)
  deriving DecidableEq, Repr

/-- The update of a cut that awaits the Hold Line's answer (R64). -/
inductive PendingAnswer
  | entry | amend | revoke
  deriving DecidableEq, Repr

/-- A listed cut (R64). -/
structure Cut where
  id : Nat
  station : Nat
  level : Nat
  action : CutAction
  /-- KEEP when true -/
  captions : Bool
  first : Isn
  /-- OUT, absent while open-ended -/
  last : Option Isn
  target : Option Target
  st : CutState
  trimmed : Nat
  seq : U32
  pend : Option PendingAnswer
  deriving DecidableEq, Repr

/-- A range of ISNs, both ends included: the unlisted span (R79). -/
structure Span where
  first : Isn
  last : Isn
  deriving DecidableEq, Repr

/-- What a watch looks for (R170). -/
inductive Cue
  | tc (t : Timecode)
  | isn (n : Isn)
  deriving DecidableEq, Repr

/-- Where a watch looks (R170). -/
inductive WatchPoint
  | ingest | playout
  deriving DecidableEq, Repr

/-- What a hit does (R170), with the template of a MARK-IN. -/
inductive WatchAction
  | notify
  | markIn (action : CutAction) (captions : Bool)
  | markOut
  | dump
  deriving DecidableEq, Repr

/-- A defined entry of the watch table (R170). -/
structure Watch where
  cue : Cue
  point : WatchPoint
  act : WatchAction
  every : Bool
  spent : Bool
  matchedLast : Bool
  hits : Nat
  by_ : Nat
  deriving DecidableEq, Repr

/-- Request words of the catalogue (R184). -/
inductive ReqWord
  | dump | markIn | markOut | cut | amend | revoke | cuts | watch | unwatch | target | engage | bypass | slice
  | status | window | load | clear | counters | portReset | param | set | save | profile | restart
  deriving DecidableEq, Repr

/-- A request that has passed its port's checks (R182, R185): the keys are those besides ST= and TAG=, in the order
of the line. `address` is the datagram's, on Port N. -/
structure Request where
  station : Nat
  tag : Nat
  word : ReqWord
  keys : List (String × String)
  address : Option Nat
  deriving DecidableEq, Repr

/-- A watch hit that calls for a request of station 0 (R175). -/
structure Hit where
  watch : Nat
  isn : Isn
  point : WatchPoint
  act : WatchAction
  cue : Cue
  spent : Bool
  deriving DecidableEq, Repr

/-- A request the Cut Engine takes in its turn (R69): a station's, answered on its port, or a watch hit's. -/
inductive CutJob
  | request (port : Port) (req : Request)
  | hit (h : Hit)
  deriving DecidableEq, Repr

/-- What awaits the Hold Line's answer (R70, R79). -/
inductive AwaitKind
  | entry (id : Nat)
  | amend (id : Nat)
  | revoke (id : Nat)
  /-- an unlisted DUMP over `range`, with the span as it was before and the ISNs of the update before the range -/
  | unlisted (range : Span) (old : Option Span) (gap : Nat)
  deriving DecidableEq, Repr

/-- The request that awaits the Hold Line's answer (R70). The update names `count` ISNs from `first` on;
`openEnded` is how the cut stood when the update was sent; `revokeAll` when the revoke-all of R88 came meanwhile. -/
structure Awaiting where
  job : CutJob
  what : AwaitKind
  first : Isn
  count : Nat
  openEnded : Bool
  revokeAll : Bool
  deriving DecidableEq, Repr

/-- What an update gives one ISN (R54). -/
structure Assign where
  isn : Isn
  fields : DispFields
  cut : Option Nat
  deriving DecidableEq, Repr

/-- A disposition update on its way to the Hold Line (R54): it names `count` ISNs from `first` on, and carries the
derived disposition of each of them that is in the line. -/
structure Update where
  first : Isn
  count : Nat
  items : List Assign
  deriving DecidableEq, Repr

/-- The Hold Line's answer (R54): the number of late ISNs and the first ISN not late. -/
structure Answer where
  late : Nat
  first : Option Isn
  deriving DecidableEq, Repr

/-- The Cut Engine (chapters 4 and 9). -/
structure CutEngine where
  /-- the cut list, in acceptance order -/
  cuts : List Cut
  nextId : Nat
  seq : U32
  head : Isn
  /-- the reported boundary -/
  boundary : Isn
  span : Option Span
  /-- watches 1 to 4 -/
  watches : List (Option Watch)
  lastBegun : Option Isn
  queue : List CutJob
  awaiting : Option Awaiting
  /-- the update on its way to the Hold Line -/
  update : Option Update
  /-- the Hold Line's answer on its way back -/
  answer : Option Answer
  deriving DecidableEq, Repr

/-! ## Pacing Controller -/

/-- Modes (R91). -/
inductive Mode
  | bypass | engaged
  deriving DecidableEq, Repr

/-- Pacing states (R91). -/
inductive PaceState
  | idle | steady | rebuild | trim
  deriving DecidableEq, Repr

/-- Kinds of period (R98). -/
inductive PeriodKind
  | normal | repeated | skip | shed
  deriving DecidableEq, Repr

/-- Reasons of a shed (R56). -/
inductive ShedReason
  | full | bypass | jump
  deriving DecidableEq, Repr

/-- A shed instruction on its way to the Hold Line (R56); `forPeriod` when a period start waits for its answer and
not a request. -/
structure ShedInstruction where
  reason : ShedReason
  isns : List Isn
  forPeriod : Bool
  deriving DecidableEq, Repr

/-- The number shed, on its way back to the Pacing Controller (R56). -/
structure ShedCount where
  shed : Nat
  forPeriod : Bool
  deriving DecidableEq, Repr

/-- A request the Pacing Controller takes in its turn (R107). -/
structure PaceJob where
  port : Port
  req : Request
  deriving DecidableEq, Repr

/-- The request that waits on a shed instruction (R102, R104). -/
inductive PaceWait
  | jump (port : Port) (target : Nat) (asked : Nat) (clamped : Bool)
  | bypass (port : Port)
  deriving DecidableEq, Repr

/-- The Pacing Controller (chapter 5). Its values of T, B, r_b and r_t stand with the values in force. -/
structure Pacing where
  mode : Mode
  st : PaceState
  /-- the slip accumulator S -/
  slip : Nat
  /-- kind of the current period -/
  kind : PeriodKind
  /-- the period start that waits on a shed instruction, by the instruction's reason -/
  period : Option ShedReason
  waiting : Option PaceWait
  queue : List PaceJob
  instructions : List ShedInstruction
  answers : List ShedCount
  deriving DecidableEq, Repr

/-! ## Playout Unit -/

/-- What a committed record is rendered as (R121). -/
structure Rendering where
  fields : DispFields
  cut : Option Nat
  deriving DecidableEq, Repr

/-- State of a buffer slot (R110), with what the state holds. -/
inductive BufPhase
  | empty
  | fetching (demand : Bool) (edit : Byte)
  | ready (edit : Byte) (essence : Essence)
  | emitting
  | faulted
  deriving DecidableEq, Repr

/-- Why a window cover fell back (R126). -/
inductive FallbackReason
  | notReady | late | fault | cleared
  deriving DecidableEq, Repr

/-- Cover read state of a slot (R110, R126), with the clip slice index that was asked for, and the clip slice when it is
in hand. A read that was never issued has no index. -/
inductive CoverRead
  | none
  | reading (index : Nat)
  | done (index : Nat) (clip : Essence)
  | failed (reason : FallbackReason) (index : Option Nat)
  | cleared (index : Nat)
  deriving DecidableEq, Repr

/-- A buffer slot (R110). The fixed rendering of a committed record is the record's own disposition fields, which never
change after the commit (R51, R121), so the slot holds no copy of them. -/
structure BufSlot where
  isn : Option Isn
  phase : BufPhase
  cover : CoverRead
  deriving DecidableEq, Repr

/-- A clip slice in hand: window, clip slice index and essence. -/
structure Clip where
  window : Nat
  index : Nat
  essence : Essence
  deriving DecidableEq, Repr

/-- The last-emitted slot (R122). -/
structure Emitted where
  isn : Isn
  tc : Option Timecode
  quiet : Bool
  rendering : Rendering
  cond : Condition
  essence : Essence
  clip : Option Clip
  concealed : Bool
  deriving DecidableEq, Repr

/-- Joins (R127, R128). -/
inductive Join
  | gap | splice | edge | continuous
  deriving DecidableEq, Repr

/-- The class of one channel of a body (R123). A CLIP channel carries its window and, once known, its clip slice
index (R127). -/
inductive ChanClass
  | program | zero | tone
  | clip (window : Nat) (index : Option Nat)
  deriving DecidableEq, Repr

/-- What the next period start needs of the current output slice: its origin, its classes, and its tail plan. -/
structure OutInfo where
  origin : Isn
  /-- a freeze, an underrun or concealed -/
  hidden : Bool
  noAudio : Bool
  classes : List ChanClass
  /-- the planned join -/
  plan : Option Join
  /-- for each channel, whether its tail was treated -/
  treated : List Bool
  deriving DecidableEq, Repr

/-- The cover run (R126): deciding cut, window and position of the last kept record committed with a WINDOW cover. -/
structure CoverRun where
  cut : Option Nat
  window : Nat
  pos : Nat
  deriving DecidableEq, Repr

/-- The Playout Unit (chapter 6). Its values of D, C and the tone level stand with the values in force. -/
structure Playout where
  /-- four buffer slots -/
  slots : List BufSlot
  /-- the last-emitted slot; empty until a record has begun since the reset -/
  last : Option Emitted
  /-- the held video -/
  held : Option Bytes
  lookahead : Option Isn
  /-- the current output slice with its tail plan -/
  prev : Option OutInfo
  tonePhase : Nat
  run : Option CoverRun
  /-- the prefetch-fault list -/
  faults : List Isn
  /-- the last cut noticed for COVER_FALLBACK -/
  lastFallback : Option Nat
  /-- the underrun mark -/
  underrun : Bool
  deriving DecidableEq, Repr

/-! ## Output Packetizer -/

/-- An output slice as the Playout Unit hands it over (R133). -/
structure Rendered where
  origin : Isn
  tc : Option Timecode
  video : Bytes
  audio : List Frame
  captions : Bytes
  repeatFlag : Bool
  seam : Bool
  covered : Bool
  concealed : Bool
  deriving DecidableEq, Repr

/-- A slice of the send queue (R146). -/
structure OutSlice where
  number : U32
  ts : U32
  stream : Nat
  payload : Nat
  sent : Nat
  slice : Rendered
  deriving DecidableEq, Repr

/-- The Output Packetizer (chapter 7). Its stream id, payload size and initial sequence stand with the values in
force. -/
structure Packetizer where
  /-- O, the output slice count -/
  out : U32
  /-- the handover count -/
  handed : U32
  /-- the next sequence number -/
  nextSeq : BitVec 16
  queue : List OutSlice
  /-- the packet Media Out took last -/
  wire : Option Bytes
  deriving DecidableEq, Repr

/-! ## Store Arbiter -/

/-- What an access is to do and where its completion goes (R150). -/
inductive StoreJob
  | fetch (demand : Bool) (isn : Isn) (page : Nat) (edit : Byte) (slot : Nat) (video : Nat) (audio : Bool)
      (captions : Nat)
  | ingestWrite (page : Nat) (slot : Nat) (essence : Essence)
  | coverRead (isn : Isn) (window : Nat) (block : Nat) (slot : Nat)
  | loadWrite (window : Nat) (block : Nat) (slot : Nat) (essence : Essence)
  deriving DecidableEq, Repr

/-- A queued request (R151, R152, R155). -/
structure StoreReq where
  job : StoreJob
  /-- order of arrival at the Arbiter -/
  arrival : Nat
  retries : Nat
  passed : Nat
  cleared : Bool
  deriving DecidableEq, Repr

/-- The access at the store (R153): `data` is what a read finds at its grant (R159). -/
structure Access where
  req : StoreReq
  grant : Nat
  grantedAt : Nat
  data : Option Essence
  deriving DecidableEq, Repr

/-- A cover window's definition (R162). -/
structure WindowDef where
  base : Nat
  length : Nat
  loop : Bool
  deriving DecidableEq, Repr

/-- States of a cover window (R162). -/
inductive WindowState
  | empty | loading | ready | faulty
  deriving DecidableEq, Repr

/-- An entry of the cover window table (R162). -/
structure WindowEntry where
  defn : Option WindowDef
  clips : Nat
  st : WindowState
  deriving DecidableEq, Repr

/-- The stacked DRAM: the bytes that differ from what an unlisted byte reads as, by rising address (R148). -/
abbrev Memory := List Host.Cell

/-- The Store Arbiter (chapter 8). -/
structure Store where
  demand : List StoreReq
  ingest : List StoreReq
  cover : List StoreReq
  load : List StoreReq
  fetch : List StoreReq
  /-- the access in flight -/
  flight : Option Access
  /-- the mark of an access begun before the last restart, with that access (R161) -/
  outstanding : Option Access
  /-- grants made, the last grant number -/
  grants : Nat
  /-- requests that have arrived -/
  arrivals : Nat
  /-- windows 1 to 8 -/
  windows : List WindowEntry
  mem : Memory
  deriving DecidableEq, Repr

/-! ## Control Ports -/

/-- The result words (R186). -/
inductive ResultWord
  | ok | started | late | clamped | tooLate | busy | denied | notEnrolled | notPermitted | full | notFound | bad
  | notEngaged | overlap
  deriving DecidableEq, Repr

/-- A value of a field the part sends. -/
inductive Val
  | num (n : Nat)
  | word (w : String)
  | tc (t : Timecode)
  | mask (m : BitVec 16)
  deriving DecidableEq, Repr

/-- A field of a reply or a notice. -/
abbrev Field := String × Val

/-- What takes effect when a reply has been sent (R193, R204). -/
inductive ReplyEffect
  | nothing
  | portReset
  | restart (station : Nat)
  deriving DecidableEq, Repr

/-- A reply waiting for the transmitter (R186). `queueFull` marks the BUSY of R181. -/
structure Reply where
  result : ResultWord
  tag : Option Nat
  fields : List Field
  effect : ReplyEffect
  queueFull : Bool
  address : Option Nat
  deriving DecidableEq, Repr

/-- Notice groups (R183). -/
inductive Group
  | cuts | pacing | faults | ingest | watch | setup
  deriving DecidableEq, Repr

/-- Severities (R187). -/
inductive Severity
  | concealed | degraded | attention
  deriving DecidableEq, Repr

/-- A notice as raised (R187). -/
structure Notice where
  word : String
  group : Group
  sev : Severity
  fields : List Field
  deriving DecidableEq, Repr

/-- A copy of a notice in a port's queue, with the addresses it goes to on Port N (R188). -/
structure NoticeLine where
  notice : Notice
  addresses : List Nat
  deriving DecidableEq, Repr

/-- The line a transmitter is sending (R186). -/
structure Sending where
  text : String
  addresses : List Nat
  effect : ReplyEffect
  deriving DecidableEq, Repr

/-- The partial line of a serial port (R180): its characters (at most 240), the over-long and the malformed marks,
and whether the character before was a carriage return. -/
structure PartialLine where
  chars : Bytes
  overlong : Bool
  bad : Bool
  cr : Bool
  deriving DecidableEq, Repr

/-- A line in a request queue (R180, R181). -/
structure QueuedLine where
  chars : Bytes
  overlong : Bool
  bad : Bool
  address : Option Nat
  deriving DecidableEq, Repr

/-- The request being taken: `reached` once its owner has been reached (R184). -/
structure AtOwner where
  req : Request
  reached : Bool
  deriving DecidableEq, Repr

/-- One control port (chapter 10). -/
structure PortState where
  line : PartialLine
  queue : List QueuedLine
  current : Option AtOwner
  sending : Option Sending
  replies : List Reply
  notices : List NoticeLine
  drops : Nat
  deriving DecidableEq, Repr

/-- The port field of a station (R183). -/
inductive PortSel
  | only (p : Port)
  | any
  deriving DecidableEq, Repr

/-- Permissions (R183). -/
structure Perms where
  cut : Bool
  pace : Bool
  setup : Bool
  view : Bool
  deriving DecidableEq, Repr

/-- Notice groups of a station (R183). -/
structure Groups where
  cuts : Bool
  pacing : Bool
  faults : Bool
  ingest : Bool
  watch : Bool
  setup : Bool
  deriving DecidableEq, Repr

/-- A held entry of the station table, with its binding state (R183). -/
structure Station where
  station : Nat
  port : PortSel
  level : Nat
  perms : Perms
  groups : Groups
  /-- the current port of an ANY station -/
  current : Option Port
  /-- the return address on Port N -/
  address : Option Nat
  deriving DecidableEq, Repr

/-- The Control Ports (chapter 10). The counters it keeps stand with the other counters. -/
structure Ports where
  a : PortState
  b : PortState
  n : PortState
  /-- the station table in force -/
  table : List Station
  /-- the waiting table (R197) -/
  waiting : Option (List Station)
  deriving DecidableEq, Repr

/-! ## Settings Store -/

/-- The parameters (R195). -/
structure Params where
  rate : Nat
  stream : Nat
  target : Nat
  band : Nat
  rebuild : Nat
  trim : Nat
  fade : Nat
  quiet : Nat
  speech : BitVec 16
  react : Nat
  postRoll : Nat
  dumpDepth : Nat
  dumpTail : Nat
  openLimit : Nat
  autoLevel : Nat
  prefetch : Nat
  payload : Nat
  outStream : Nat
  initSeq : Nat
  tone : Nat
  autoEngage : Bool
  deriving DecidableEq, Repr

/-- The keys of the parameters (R195). -/
inductive ParamKey
  | rate | stream | target | band | rebuild | trim | fade | quiet | speech | react | postRoll | dumpDepth | dumpTail
  | openLimit | autoLevel | prefetch | payload | outStream | initSeq | tone | autoEngage
  deriving DecidableEq, Repr

/-- A record of a profile's body (R199). A parameter's value is a number; the speech mask is its sixteen bits and
auto-engage is 1 for YES and 0 for NO. A record with a tag that the part does not know has its value in 16-bit words;
`broken` are the words of a body that do not parse as a record. -/
inductive ProfileRecord
  | param (key : ParamKey) (value : Nat)
  | station (s : Station)
  | window (n : Nat) (d : WindowDef)
  | unknown (tag : Nat) (value : List Nat)
  | broken (words : List Nat)
  deriving DecidableEq, Repr

/-- A profile slot (R199): the slot number, generation and checksum of its header, the mark of a slot whose save has
not ended well (R200, R201), and the body. -/
structure ProfileSlot where
  number : Nat
  gen : Nat
  /-- the ones' complement checksum over the body -/
  checksum : BitVec 16
  /-- made invalid by a SAVE whose write has not ended well -/
  interrupted : Bool
  body : List ProfileRecord
  deriving DecidableEq, Repr

/-- The save in flight (R200). -/
structure Save where
  slot : Nat
  gen : Nat
  began : Nat
  body : List ProfileRecord
  deriving DecidableEq, Repr

/-- The cause of the last reset (R204): the reset line, or a station's RESTART. -/
inductive Cause
  | powerOn
  | restartLine
  | restartBy (station : Nat)
  deriving DecidableEq, Repr

/-- The Settings Store (chapter 11). -/
structure Settings where
  stored : Params
  /-- slots 0 to 4 -/
  slots : List ProfileSlot
  save : Option Save
  /-- the start slot; none is DEFAULTS -/
  start : Option Nat
  cause : Cause
  deriving DecidableEq, Repr

/-! ## Counters -/

/-- The counters (R191). -/
structure Counters where
  accepted : Nat
  late : Nat
  early : Nat
  duplicate : Nat
  malformed : Nat
  checksum : Nat
  partials : Nat
  losses : Nat
  repeats : Nat
  skips : Nat
  sheds : Nat
  freezes : Nat
  lateFetches : Nat
  captionsCut : Nat
  retries : Nat
  faults : Nat
  corrected : Nat
  dropped : Nat
  deriving DecidableEq, Repr

/-- Whether the part runs (R201, R204). -/
inductive Phase
  /-- without power -/
  | off
  /-- in the reset state while the reset line is held; `power` when the reset is a power-on -/
  | held (power : Bool)
  | running
  deriving DecidableEq, Repr

end Sys2Proof.Machine
end

