-- ==== Sys2Proof/Machine/Flags.lean ====
section
/-! DEFINITION. The flags of the part: the flags byte of an output header (R13, R16, R141, R142) and the quiet mark of
a slice (R32), with the reading and writing of 24-bit samples (R2, R140) that they and the rendering need. -/

namespace Sys2Proof.Machine

/-- The flags byte: FIRST, LAST, REPEAT, SEAM, COVERED, CONCEALED in bits 7 to 2, bits 1 and 0 zero (R13). -/
def flagsByte (first last : Bool) (r : Rendered) : Byte :=
  BitVec.ofNat 8 (128 * first.toNat + 64 * last.toNat + 32 * r.repeatFlag.toNat + 16 * r.seam.toNat
    + 8 * r.covered.toNat + 4 * r.concealed.toNat)

/-! ## Samples -/

/-- The sample in a container: its three low-order bytes in two's complement; the high-order byte is disregarded (R2). -/
def sampleOf (b1 b2 b3 : Byte) : Int := (b1 ++ b2 ++ b3 : BitVec 24).toInt

/-- The samples of a run of whole containers. -/
def samplesOf : Bytes → List Int
  | _ :: b1 :: b2 :: b3 :: rest => sampleOf b1 b2 b3 :: samplesOf rest
  | _ => []

/-- The sample frames of an audio essence, sixteen samples each, at most `n` of them (R2). -/
def framesOf : Nat → List Int → List Frame
  | 0, _ => []
  | _, [] => []
  | n + 1, xs => xs.take 16 :: framesOf n (xs.drop 16)

/-- The container of a sample: big-endian, the high-order byte its sign extension (R140). -/
def containerOf (x : Int) : Bytes :=
  let w := BitVec.ofInt 32 x
  [w.extractLsb' 24 8, w.extractLsb' 16 8, w.extractLsb' 8 8, w.extractLsb' 0 8]

/-- The audio essence of rendered frames (R140). -/
def audioBytes (frames : List Frame) : Bytes := frames.flatMap fun f => f.flatMap containerOf

/-! ## Quiet -/

/-- The largest magnitude in one frame over the channels of a mask; channel c is bit c - 1 (R32). -/
def framePeak (mask : BitVec 16) (f : Frame) : Nat :=
  (f.zipIdx.foldl (fun m x => if mask.getLsbD x.2 then max m x.1.natAbs else m) 0)

/-- The peak of a slice's kept audio over the channels of the speech mask; 0 without audio (R32). -/
def slicePeak (mask : BitVec 16) (length : Nat) : Option Bytes → Nat
  | none => 0
  | some bs => (framesOf length (samplesOf bs)).foldl (fun m f => max m (framePeak mask f)) 0

/-- The slice is quiet: its peak is below the threshold (R32). With an empty speech mask and a threshold of 0 it is not:
the model follows R32 there and not the sentence of R195 (log entry 62). -/
def isQuiet (mask : BitVec 16) (threshold length : Nat) (audio : Option Bytes) : Bool :=
  slicePeak mask length audio < threshold

end Sys2Proof.Machine
end

