-- ==== Sys2Proof/Machine/Header.lean ====
section
/-! DEFINITION. The essence packet header (sections 1.6 and 1.7): its words, its checksum, its check on Media In, and
its filling on Media Out. -/

namespace Sys2Proof.Machine

/-- A 16-bit big-endian field. -/
def be16 (n : Nat) : Bytes := [BitVec.ofNat 8 (n / 256), BitVec.ofNat 8 n]

/-- A 32-bit big-endian field. -/
def be32 (w : U32) : Bytes := [w.extractLsb' 24 8, w.extractLsb' 16 8, w.extractLsb' 8 8, w.extractLsb' 0 8]

/-- The big-endian number of a run of bytes. -/
def beValue (bs : Bytes) : Nat := bs.foldl (fun n b => 256 * n + b.toNat) 0

/-- The 16-bit words of a run of bytes, big-endian. -/
def wordsOf : Bytes → List Nat
  | a :: b :: rest => (256 * a.toNat + b.toNat) :: wordsOf rest
  | _ => []

/-- One addition with end-around carry (R17). -/
def addCarry (a w : Nat) : Nat := if 65536 ≤ a + w then a + w - 65535 else a + w

/-- The ones' complement sum of 16-bit words (R17). -/
def onesSum (ws : List Nat) : Nat := ws.foldl addCarry 0

/-- The checksum of a header whose checksum word is zero (R17). -/
def checksumOf (header : Bytes) : Nat := 65535 - onesSum (wordsOf header)

/-- A header of fifteen words as it arrived verifies (R17). -/
def checksumVerifies (header : Bytes) : Bool := onesSum (wordsOf header) = 65535

/-- The fields of an input header that the part reads (R15), and the payload. -/
structure Packet where
  stream : Nat
  kind : Kind
  ts : U32
  offset : Nat
  total : Nat
  tc : Timecode
  payload : Bytes
  deriving DecidableEq, Repr

/-- What the header check of R14 makes of a packet. -/
inductive HeaderCheck
  | malformed
  | checksum
  | passed (p : Packet)
  deriving DecidableEq, Repr

/-- A kind's number in byte 2 (R13). -/
def kindOf : Nat → Option Kind
  | 1 => some .video
  | 2 => some .audio
  | 3 => some .caption
  | _ => none

/-- The number of a kind (R13). -/
def Kind.number : Kind → Nat
  | .video => 1
  | .audio => 2
  | .caption => 3

/-- The bytes `first .. first + n - 1`. -/
def fieldBytes (bs : Bytes) (first n : Nat) : Bytes := (bs.drop first).take n

/-- The header check, in the order of R14. -/
def checkHeader (packet : Bytes) : HeaderCheck :=
  let header := packet.take 30
  let payload := packet.drop 30
  if packet.length < 30 || beValue (fieldBytes packet 0 2) ≠ 0xD516 then .malformed
  else if !checksumVerifies header then .checksum
  else
    let b2 := beValue (fieldBytes packet 2 1)
    let len := beValue (fieldBytes packet 6 2)
    match kindOf (b2 % 16) with
    | none => .malformed
    | some kind =>
      if len < 1 || 8192 < len || len ≠ payload.length then .malformed
      else .passed
        { stream := b2 / 16
          kind := kind
          ts := BitVec.ofNat 32 (beValue (fieldBytes packet 8 4))
          offset := beValue (fieldBytes packet 12 4)
          total := beValue (fieldBytes packet 16 4)
          tc := ⟨beValue (fieldBytes packet 24 1), beValue (fieldBytes packet 25 1), beValue (fieldBytes packet 26 1),
            beValue (fieldBytes packet 27 1)⟩
          payload := payload }

/-- The timecode bytes of a header: all 0xFF when absent (R13, R144). -/
def timecodeBytes : Option Timecode → Bytes
  | none => [255, 255, 255, 255]
  | some t => [BitVec.ofNat 8 t.hours, BitVec.ofNat 8 t.minutes, BitVec.ofNat 8 t.seconds, BitVec.ofNat 8 t.frames]

/-- The first 28 bytes of an output header (R16, R135, R141 to R144). -/
def headerFields (o : OutSlice) (kind : Kind) (seq : BitVec 16) (offset length total : Nat) : Bytes :=
  be16 0xD516
    ++ [BitVec.ofNat 8 (16 * o.stream + kind.number), flagsByte (offset = 0) (offset + length = total) o.slice]
    ++ be16 seq.toNat ++ be16 length ++ be32 o.ts ++ be32 (BitVec.ofNat 32 offset) ++ be32 (BitVec.ofNat 32 total)
    ++ be32 o.slice.origin ++ timecodeBytes o.slice.tc

/-- A whole output header, its checksum computed last (R145). -/
def outputHeader (o : OutSlice) (kind : Kind) (seq : BitVec 16) (offset length total : Nat) : Bytes :=
  let fields := headerFields o kind seq offset length total
  fields ++ be16 (checksumOf fields)

end Sys2Proof.Machine
end

