-- ==== Sys2Proof/Machine/Init.lean ====
section
/-! DEFINITION. The state of each block after power-on and after restart, as each block's own chapter gives it. -/

namespace Sys2Proof.Machine

/-- The defaults of R195. The default speech mask YYNNNNNNNNNNNNNN is channels 1 and 2. -/
def Params.defaults : Params where
  rate := 25
  stream := 0
  target := 250
  band := 2
  rebuild := 123
  trim := 123
  fade := 64
  quiet := 8388
  speech := 3
  react := 8
  postRoll := 4
  dumpDepth := 0
  dumpTail := 2
  openLimit := 750
  autoLevel := 4
  prefetch := 2
  payload := 8192
  outStream := 0
  initSeq := 0
  tone := 838861
  autoEngage := false

/-- R7: HOLDOVER with no period begun, no mark pending, and the loss watch running from the moment `now` at which
the reset ends. The time of the last pulse, of which there is none, is the model's (log entry 5). -/
def Timer.init (rate now : Nat) : Timer where
  locked := false
  begun := false
  lastPulse := 0
  pulses := 0
  markPending := false
  markDue := 0
  watchRuns := true
  watchDue := now + Config.watchPeriod rate
  freeRuns := false
  freeDue := 0

/-- A kind of which nothing has been received (R26). -/
def KindBuf.empty : KindBuf := ⟨none, [], false, false⟩

/-- A FREE staging slot (R23). -/
def StagingSlot.empty : StagingSlot := ⟨.free, .empty, .empty, .empty, none, .empty, 0⟩

/-- R36. -/
def Ingest.init : Ingest where
  expected := none
  window := []
  slots := List.replicate 3 .empty
  early := 0
  lossRun := 0
  last := none

/-- R40: IDLE with both slots FREE. An IDLE lane's other fields mean nothing; the model's values (log entry 5). -/
def Lane.init : Lane where
  st := .idle
  window := 0
  stream := 0
  count := 0
  base := 0
  leadIn := none
  leadInHeld := false
  expected := 0
  positions := []
  slots := List.replicate 2 .empty
  clip := 0
  faultMark := false

/-- R63. -/
def HoldLine.init : HoldLine where
  records := []
  nextIsn := 0
  freePool := List.range Config.pages
  commitPoint := none

/-- R90, R170. -/
def CutEngine.init : CutEngine where
  cuts := []
  nextId := 1
  seq := 0
  head := 4294967295
  boundary := 0
  span := none
  watches := List.replicate 4 none
  lastBegun := none
  queue := []
  awaiting := none
  update := none
  answer := none

/-- R109. The kind of a period before the first is the model's (log entry 5). -/
def Pacing.init (autoEngage : Bool) : Pacing where
  mode := if autoEngage then .engaged else .bypass
  st := if autoEngage then .steady else .idle
  slip := 0
  kind := .normal
  period := none
  waiting := none
  queue := []
  instructions := []
  answers := []

/-- An EMPTY buffer slot (R110). -/
def BufSlot.empty : BufSlot := ⟨none, .empty, .none⟩

/-- R134. -/
def Playout.init : Playout where
  slots := List.replicate 4 .empty
  last := none
  held := none
  lookahead := none
  prev := none
  tonePhase := 0
  run := none
  faults := []
  lastFallback := none
  underrun := false

/-- R147. A packet already begun on Media Out is completed as it was stamped, so `wire` is carried over. -/
def Packetizer.init (initSeq : Nat) (wire : Option Bytes) : Packetizer where
  out := 0
  handed := 0
  nextSeq := BitVec.ofNat 16 initSeq
  queue := []
  wire := wire

/-- An undefined cover window (R162). -/
def WindowEntry.undefinedEntry : WindowEntry := ⟨none, 0, .empty⟩

/-- A defined, EMPTY cover window (R162). -/
def WindowEntry.emptyOf (d : WindowDef) : WindowEntry := ⟨some d, 0, .empty⟩

/-- R161 after power-on, with the windows R169 takes from the start profile. -/
def Store.init (windows : List WindowEntry) : Store where
  demand := []
  ingest := []
  cover := []
  load := []
  fetch := []
  flight := none
  outstanding := none
  grants := 0
  arrivals := 0
  windows := windows
  mem := []

/-- No partial line (R194). -/
def PartialLine.empty : PartialLine := ⟨[], false, false, false⟩

/-- R194; a line already begun is finished, so `sending` is carried over a restart. -/
def PortState.init (sending : Option Sending) : PortState where
  line := .empty
  queue := []
  current := none
  sending := sending
  replies := []
  notices := []
  drops := 0

/-- The binding state of an entry is cleared (R183). -/
def Station.unbound (s : Station) : Station := { s with current := none, address := none }

/-- All permissions. -/
def Perms.all : Perms := ⟨true, true, true, true⟩

/-- All notice groups. -/
def Groups.all : Groups := ⟨true, true, true, true, true, true⟩

/-- The built-in station table: station 1 on port ANY, at level 15, with everything (R203). -/
def Station.builtIn : Station := ⟨1, .any, 15, .all, .all, none, none⟩

/-- A blank profile slot: invalid, since a checksum of 0 does not verify over an empty body (R199, R203). -/
def ProfileSlot.blank (number : Nat) : ProfileSlot := ⟨number, 0, 0, false, []⟩

/-- Every counter starts at 0 (R191). -/
def Counters.zero : Counters := ⟨0, 0, 0, 0, 0, 0, 0, 0, 0, 0, 0, 0, 0, 0, 0, 0, 0, 0⟩

end Sys2Proof.Machine
end

