-- ==== Sys2Proof/Machine/State.lean ====
section
/-! DEFINITION. The state of the DX16, the reasons a step can stop, and the machine right after reset. -/

namespace Sys2Proof.Machine

/-- The whole state. `pending` is the queue of waiting commands, first in, first out. -/
structure State where
  /-- commands that wait to be taken -/
  pending : List Instr
  /-- the model's own clock, in ticks of a third of a millisecond (log entry 1) -/
  now : Nat
  phase : Phase
  /-- the level of the reset line: true while it is held -/
  resetLine : Bool
  /-- how many free values of the store have been drawn: the model's own field (log entry 3) -/
  draws : Nat
  /-- the value in force of each parameter, at its owner (R195) -/
  force : Params
  timer : Timer
  ingest : Ingest
  lane : Lane
  line : HoldLine
  cuts : CutEngine
  pace : Pacing
  play : Playout
  pack : Packetizer
  store : Store
  ports : Ports
  settings : Settings
  counters : Counters
  deriving DecidableEq, Repr

/-- Why a step stops with a fault. -/
inductive Fault
  /-- Raised by CLOSING_MARK when all 4,096 record slots are occupied. The manual says the fullness guards keep the
  line at 4,089 records or fewer (R42, R60) and gives no effect for a creation without a free slot. Safe: the model
  stops where the manual says nothing (log entry 6). -/
  | noRecordSlot
  deriving DecidableEq, Repr

/-- Why a command has no meaning. -/
inductive Refusal
  /-- Raised by `exec` for a command that is not modelled. Safe. No arm of `exec` raises it. -/
  | notModelled (mnemonic : String)
  deriving DecidableEq, Repr

/-- The part right after the power-on of a blank device (R203, log entry 2): every profile slot invalid, so the
built-in defaults are in force; the notices of R203 and R205 have found no audience, since the one station has no
current port yet (R194, R205). -/
def State.reset : State where
  pending := []
  now := 0
  phase := .running
  resetLine := false
  draws := 0
  force := .defaults
  timer := .init 25 0
  ingest := .init
  lane := .init
  line := .init
  cuts := .init
  pace := .init false
  play := .init
  pack := .init 0 none
  store := .init (List.replicate 8 .undefinedEntry)
  ports := ⟨.init none, .init none, .init none, [.builtIn], none⟩
  settings := ⟨.defaults, (List.range 5).map .blank, none, none, .powerOn⟩
  counters := .zero

end Sys2Proof.Machine
end

