-- ==== Sys2Proof/Machine/Text.lean ====
section
/-! DEFINITION. The grammar of control lines (section 10.2): how a received line is read, and how replies and notices
are written. -/

namespace Sys2Proof.Machine

/-! ## Reading -/

/-- The runs between single spaces: an empty run stands for a leading, trailing or doubled space. -/
def splitSpaces : List Char → List (List Char)
  | [] => [[]]
  | c :: cs =>
    if c = ' ' then [] :: splitSpaces cs
    else match splitSpaces cs with
      | [] => [[c]]
      | t :: ts => (c :: t) :: ts

/-- 'A' to 'Z'. -/
def isUpperCase (c : Char) : Bool := 65 ≤ c.toNat && c.toNat ≤ 90

/-- '0' to '9'. -/
def isDecimal (c : Char) : Bool := 48 ≤ c.toNat && c.toNat ≤ 57

/-- Printable: 0x20 to 0x7E (R180). -/
def isPrintable (c : Char) : Bool := 32 ≤ c.toNat && c.toNat ≤ 126

/-- The value of a run of decimal digits. -/
def digitsValue (cs : List Char) : Nat := cs.foldl (fun n c => 10 * n + (c.toNat - 48)) 0

/-- A number: 1 to 10 decimal digits, leading zeros allowed, no sign. -/
def numberOf (cs : List Char) : Option Nat :=
  if 1 ≤ cs.length && cs.length ≤ 10 && cs.all isDecimal then some (digitsValue cs) else none

/-- A number within a range, both ends included. -/
def numberIn (lo hi : Nat) (cs : List Char) : Option Nat :=
  (numberOf cs).filter fun n => lo ≤ n && n ≤ hi

/-- Two decimal digits. -/
def twoDigits (c d : Char) : Option Nat :=
  if isDecimal c && isDecimal d then some (digitsValue [c, d]) else none

/-- A timecode within the ranges of R6, at `rate` slices per second. -/
def Timecode.inRange (rate : Nat) (t : Timecode) : Bool :=
  t.hours ≤ 23 && t.minutes ≤ 59 && t.seconds ≤ 59 && t.frames < rate

/-- HH:MM:SS:FF, within the ranges of R6. -/
def timecodeOf (rate : Nat) : List Char → Option Timecode
  | [h, h', ':', m, m', ':', s, s', ':', f, f'] => do
    let t : Timecode := ⟨← twoDigits h h', ← twoDigits m m', ← twoDigits s s', ← twoDigits f f'⟩
    if t.inRange rate then some t else none
  | _ => none

/-- The bits of a run of letters, the first letter the lowest bit. -/
def maskBits : List Char → Nat
  | [] => 0
  | c :: cs => (if c = 'Y' then 1 else 0) + 2 * maskBits cs

/-- A channel mask: sixteen letters Y or N, channel 1 first. -/
def maskOf (cs : List Char) : Option (BitVec 16) :=
  if cs.length = 16 && cs.all (fun c => c = 'Y' || c = 'N') then some (BitVec.ofNat 16 (maskBits cs)) else none

/-- The request catalogue (R184). -/
def catalogue : List (String × ReqWord) :=
  [("DUMP", .dump), ("MARK-IN", .markIn), ("MARK-OUT", .markOut), ("CUT", .cut), ("AMEND", .amend),
    ("REVOKE", .revoke), ("CUTS", .cuts), ("WATCH", .watch), ("UNWATCH", .unwatch), ("TARGET", .target),
    ("ENGAGE", .engage), ("BYPASS", .bypass), ("SLICE", .slice), ("STATUS", .status), ("WINDOW", .window),
    ("LOAD", .load), ("CLEAR", .clear), ("COUNTERS", .counters), ("PORT-RESET", .portReset), ("PARAM", .param),
    ("SET", .set), ("SAVE", .save), ("PROFILE", .profile), ("RESTART", .restart)]

/-- The form of a message word: 1 to 16 upper-case letters and hyphens, starting with a letter. -/
def isMessageWord : List Char → Bool
  | [] => false
  | c :: cs => isUpperCase c && cs.length ≤ 15 && cs.all (fun d => isUpperCase d || d = '-')

/-- A token KEY=VALUE (section 10.2). -/
def fieldOf (token : List Char) : Option (String × String) :=
  let key := token.takeWhile (· ≠ '=')
  let rest := token.dropWhile (· ≠ '=')
  match rest with
  | [] => none
  | _ :: value =>
    if 1 ≤ key.length && key.length ≤ 12 && key.all isUpperCase && value != []
        && value.all (fun c => isPrintable c && c ≠ ' ' && c ≠ '=') then
      some (String.ofList key, String.ofList value)
    else none

/-- All of a list's values, or none. -/
def allSome : List (Option α) → Option (List α)
  | [] => some []
  | none :: _ => none
  | some x :: rest => (allSome rest).map (x :: ·)

/-- The characters of a line. -/
def QueuedLine.text (l : QueuedLine) : List Char := l.chars.map fun b => Char.ofNat b.toNat

/-- The value of a token TAG=v with v from 0 to 65,535. -/
def tagToken : List Char → Option Nat
  | 'T' :: 'A' :: 'G' :: '=' :: v => numberIn 0 65535 v
  | _ => none

/-- The tag a BAD or BUSY reply carries: that of the one token TAG=v of the line (R181, R182). Of an over-long line it is
read from the first 240 characters alone, also where these end within the token: the model's choice (log entry 58). -/
def QueuedLine.tag (l : QueuedLine) : Option Nat :=
  match (splitSpaces l.text).filterMap tagToken with
  | [n] => some n
  | _ => none

/-- The keys of a list of fields are distinct. -/
def distinctKeys : List (String × String) → Bool
  | [] => true
  | (k, _) :: rest => rest.all (fun f => f.1 ≠ k) && distinctKeys rest

/-- The request a line holds, or none when the port refuses it BAD (R182). -/
def QueuedLine.request (l : QueuedLine) : Option Request :=
  if l.overlong || l.bad then none
  else match splitSpaces l.text with
    | [] => none
    | w :: tokens =>
      if !isMessageWord w then none
      else do
        let word ← catalogue.lookup (String.ofList w)
        let fields ← allSome (tokens.map fieldOf)
        if !distinctKeys fields then none
        else
          let station ← (fields.lookup "ST").bind fun v => numberIn 1 99 v.toList
          let tag ← (fields.lookup "TAG").bind fun v => numberIn 0 65535 v.toList
          some ⟨station, tag, word, fields.filter fun f => f.1 ≠ "ST" && f.1 ≠ "TAG", l.address⟩

/-! ## Writing -/

/-- Two decimal digits of a number below 100. -/
def twoDigitText (n : Nat) : String := if n < 10 then "0" ++ toString n else toString n

/-- HH:MM:SS:FF. -/
def Timecode.text (t : Timecode) : String :=
  twoDigitText t.hours ++ ":" ++ twoDigitText t.minutes ++ ":" ++ twoDigitText t.seconds ++ ":" ++ twoDigitText t.frames

/-- Sixteen letters Y or N, channel 1 first. -/
def maskText (m : BitVec 16) : String :=
  String.ofList ((List.range 16).map fun i => if m.getLsbD i then 'Y' else 'N')

/-- A value as sent. -/
def Val.text : Val → String
  | .num n => toString n
  | .word w => w
  | .tc t => t.text
  | .mask m => maskText m

/-- Fields as sent, each after a space. -/
def fieldsText : List Field → String
  | [] => ""
  | (k, v) :: rest => " " ++ k ++ "=" ++ v.text ++ fieldsText rest

/-- A result word as sent (R186). -/
def ResultWord.text : ResultWord → String
  | .ok => "OK"
  | .started => "STARTED"
  | .late => "LATE"
  | .clamped => "CLAMPED"
  | .tooLate => "TOO-LATE"
  | .busy => "BUSY"
  | .denied => "DENIED"
  | .notEnrolled => "NOT-ENROLLED"
  | .notPermitted => "NOT-PERMITTED"
  | .full => "FULL"
  | .notFound => "NOT-FOUND"
  | .bad => "BAD"
  | .notEngaged => "NOT-ENGAGED"
  | .overlap => "OVERLAP"

/-- A severity as sent (R187). -/
def Severity.text : Severity → String
  | .concealed => "CONCEALED"
  | .degraded => "DEGRADED"
  | .attention => "ATTENTION"

/-- The line of a reply: result word, TAG=, then the owner's fields (R186). The tag is sent as a number, without the
leading zeros it may have come with: the model's choice (log entry 59). The reply of a SET whose clamped values are longer
than those given can pass the 240 characters of R186, and is sent whole: the model's choice (log entry 69). -/
def Reply.text (r : Reply) : String :=
  r.result.text ++ " TAG=" ++ (match r.tag with
    | some n => toString n
    | none => "NONE") ++ fieldsText r.fields

/-- The line of a notice: notice word, the owner's fields, SEV= last (R187). -/
def Notice.text (n : Notice) : String := n.word ++ fieldsText n.fields ++ " SEV=" ++ n.sev.text

/-- The notice line as it is taken for sending, with DROPPED= when copies were dropped (R189). -/
def NoticeLine.text (l : NoticeLine) (drops : Nat) : String :=
  if drops = 0 then l.notice.text else l.notice.text ++ " DROPPED=" ++ toString drops

/-- Numbers joined by commas, or NONE. -/
def commaList (ns : List Nat) : String :=
  if ns.isEmpty then "NONE" else String.intercalate "," (ns.map toString)

/-- Words joined by a separator, or NONE. -/
def wordList (sep : String) (ws : List String) : String :=
  if ws.isEmpty then "NONE" else String.intercalate sep ws

/-- YES or NO. -/
def yesNo (b : Bool) : String := if b then "YES" else "NO"

/-- KEEP or REMOVE. -/
def keepRemove (b : Bool) : String := if b then "KEEP" else "REMOVE"

/-- An ISN as a field value. -/
def Val.isn (i : Isn) : Val := .num i.toNat

end Sys2Proof.Machine
end

