-- ==== Sys2Proof/Machine/Ops.lean ====
section
/-! DEFINITION. The operations that every block shares: updates of one block of the state, the bytes of the stacked
DRAM, the queries of the Hold Line (R58), the counters (R191), notices (R187 to R190), replies and the transmitter
(R186), and the taking of a routed request by its owner. -/

namespace Sys2Proof.Machine

/-! ## One block of the state -/

/-- Change the Period Timer. -/
def State.onTimer (s : State) (f : Timer → Timer) : State := { s with timer := f s.timer }
/-- Change the program path of the Ingest Unit. -/
def State.onIngest (s : State) (f : Ingest → Ingest) : State := { s with ingest := f s.ingest }
/-- Change the cover-load lane. -/
def State.onLane (s : State) (f : Lane → Lane) : State := { s with lane := f s.lane }
/-- Change the Hold Line. -/
def State.onLine (s : State) (f : HoldLine → HoldLine) : State := { s with line := f s.line }
/-- Change the Cut Engine. -/
def State.onCuts (s : State) (f : CutEngine → CutEngine) : State := { s with cuts := f s.cuts }
/-- Change the Pacing Controller. -/
def State.onPace (s : State) (f : Pacing → Pacing) : State := { s with pace := f s.pace }
/-- Change the Playout Unit. -/
def State.onPlay (s : State) (f : Playout → Playout) : State := { s with play := f s.play }
/-- Change the Output Packetizer. -/
def State.onPack (s : State) (f : Packetizer → Packetizer) : State := { s with pack := f s.pack }
/-- Change the Store Arbiter. -/
def State.onStore (s : State) (f : Store → Store) : State := { s with store := f s.store }
/-- Change the Control Ports. -/
def State.onPorts (s : State) (f : Ports → Ports) : State := { s with ports := f s.ports }
/-- Change the Settings Store. -/
def State.onSettings (s : State) (f : Settings → Settings) : State := { s with settings := f s.settings }
/-- Change the counters. -/
def State.onCounters (s : State) (f : Counters → Counters) : State := { s with counters := f s.counters }
/-- Change the values in force. -/
def State.onForce (s : State) (f : Params → Params) : State := { s with force := f s.force }
/-- An event that falls at a due time: the clock is then at that time or later (log entry 1). -/
def State.atTime (s : State) (due : Nat) : State := { s with now := max s.now due }

/-- One more free value of the store has been drawn (log entry 3). -/
def State.drawn (s : State) : State := { s with draws := s.draws + 1 }

/-- The part is powered and not held in reset (R201, R204). -/
def State.runs (s : State) : Bool := s.phase == .running

/-- The slice length L in force (R3). -/
def State.sliceLength (s : State) : Nat := 48000 / s.force.rate

/-- Replace the `i`-th element by its image. -/
def listModify (f : α → α) : Nat → List α → List α
  | _, [] => []
  | 0, x :: xs => f x :: xs
  | i + 1, x :: xs => x :: listModify f i xs

/-! ## The stacked DRAM -/

/-- What a byte that nothing has written since the power-on reads as (log entry 7). -/
def Memory.unlisted : Byte := 0

/-- One byte. -/
def Memory.read (m : Memory) (a : Nat) : Byte := (m.lookup a).getD Memory.unlisted

/-- The cells of a run of bytes from an address on, without those that read as unlisted. -/
def cellsFrom : Nat → Bytes → Memory
  | _, [] => []
  | a, b :: bs => if b = Memory.unlisted then cellsFrom (a + 1) bs else (a, b) :: cellsFrom (a + 1) bs

/-- Write a run of bytes. -/
def Memory.write (m : Memory) (a : Nat) (bs : Bytes) : Memory :=
  let stop := a + bs.length
  m.filter (fun c => c.1 < a) ++ cellsFrom a bs ++ m.filter (fun c => stop ≤ c.1)

/-- Read the bytes from `a` on, out of cells none of which lies before `a`. -/
def fillFrom : Nat → Nat → Memory → Bytes
  | _, 0, _ => []
  | a, n + 1, [] => Memory.unlisted :: fillFrom (a + 1) n []
  | a, n + 1, c :: cs =>
    if c.1 = a then c.2 :: fillFrom (a + 1) n cs else Memory.unlisted :: fillFrom (a + 1) n (c :: cs)

/-- Read a run of bytes. -/
def Memory.readRun (m : Memory) (a n : Nat) : Bytes := fillFrom a n (m.filter fun c => a ≤ c.1)

/-- Addresses strictly rising from `lo` on, and no entry that reads as unlisted. -/
def Memory.risingFrom : Nat → Memory → Bool
  | _, [] => true
  | lo, c :: cs => lo ≤ c.1 && c.2 != Memory.unlisted && Memory.risingFrom (c.1 + 1) cs

/-- The canonical form. -/
def Memory.wf (m : Memory) : Bool := Memory.risingFrom 0 m

/-! ## The Hold Line's figures and queries (R49, R53, R58 to R60) -/

/-- The record's disposition is KEEP, COVER or MUTE. -/
def Rec.kept (r : Rec) : Bool := r.fields.disp.kept

/-- A kept record whose emission has not begun and which was not skipped. -/
def Rec.waits (r : Rec) : Bool := r.kept && r.life != .emitting && !r.skipped

/-- H, the held depth (R49). -/
def HoldLine.held (l : HoldLine) : Nat := l.records.countP Rec.waits

/-- The record count (R42). -/
def HoldLine.count (l : HoldLine) : Nat := l.records.length

/-- A, the amendable boundary (R53). -/
def HoldLine.boundary (l : HoldLine) : Isn :=
  match l.commitPoint with
  | some c => c + 1
  | none => match l.records with
    | r :: _ => r.isn
    | [] => l.nextIsn

/-- The record is at or after A (R53). -/
def HoldLine.amendable (l : HoldLine) (r : Rec) : Bool := atOrAfter r.isn l.boundary

/-- One record by ISN. -/
def HoldLine.find (l : HoldLine) (i : Isn) : Option Rec := l.records.find? fun r => r.isn = i

/-- The newest record. -/
def HoldLine.newest (l : HoldLine) : Option Rec := l.records.getLast?

/-- The kept records that wait, in ISN order. -/
def HoldLine.waiting (l : HoldLine) : List Rec := l.records.filter Rec.waits

/-- The due slice: the oldest kept record that has neither begun emission nor been skipped (R92). -/
def HoldLine.due (l : HoldLine) : Option Rec := l.waiting.head?

/-- The kept records that wait after a record. -/
def HoldLine.waitingAfter (l : HoldLine) (i : Isn) : List Rec := l.waiting.filter fun r => isAfter r.isn i

/-- The number of kept, unskipped records at or after A that are not in WRITING (R92). -/
def HoldLine.writtenKept (l : HoldLine) : Nat :=
  l.records.countP fun r => r.waits && l.amendable r && r.life != .writing

/-- The newest record in lifecycle HELD. -/
def HoldLine.newestHeld (l : HoldLine) : Option Rec := (l.records.filter fun r => r.life = .held).getLast?

/-- The records carrying a timecode, oldest first. -/
def HoldLine.withTimecode (l : HoldLine) (t : Timecode) : List Rec := l.records.filter fun r => r.tc = some t

/-- The repeat inhibit guard (R59). -/
def HoldLine.repeatInhibit (l : HoldLine) : Bool := Config.repeatInhibitAt ≤ l.count

/-- The shed demand guard, as the Pacing Controller reads it at a pulse (R60). -/
def HoldLine.shedDemand (l : HoldLine) : Bool := Config.shedDemandAt ≤ l.count

/-- Change the record with an ISN. -/
def HoldLine.modify (l : HoldLine) (i : Isn) (f : Rec → Rec) : HoldLine :=
  { l with records := l.records.map fun r => if r.isn = i then f r else r }

/-! ## Counters -/

/-- A counter rises by `k` and holds at its maximum (R191). -/
def rise (n k : Nat) : Nat := satAdd Config.counterTop n k

/-- Packets accepted. -/
def countAccepted (s : State) : State := s.onCounters fun c => { c with accepted := rise c.accepted 1 }
/-- Late packets. -/
def countLate (s : State) : State := s.onCounters fun c => { c with late := rise c.late 1 }
/-- Early packets. -/
def countEarly (s : State) : State := s.onCounters fun c => { c with early := rise c.early 1 }
/-- Duplicate packets. -/
def countDuplicate (s : State) : State := s.onCounters fun c => { c with duplicate := rise c.duplicate 1 }
/-- Malformed packets. -/
def countMalformed (s : State) : State := s.onCounters fun c => { c with malformed := rise c.malformed 1 }
/-- Checksum failures. -/
def countChecksum (s : State) : State := s.onCounters fun c => { c with checksum := rise c.checksum 1 }
/-- PARTIAL slices. -/
def countPartial (s : State) : State := s.onCounters fun c => { c with partials := rise c.partials 1 }
/-- LOSS slices. -/
def countLoss (s : State) : State := s.onCounters fun c => { c with losses := rise c.losses 1 }
/-- Repeats. -/
def countRepeat (s : State) : State := s.onCounters fun c => { c with repeats := rise c.repeats 1 }
/-- Skips. -/
def countSkip (s : State) : State := s.onCounters fun c => { c with skips := rise c.skips 1 }
/-- Sheds. -/
def countSheds (k : Nat) (s : State) : State := s.onCounters fun c => { c with sheds := rise c.sheds k }
/-- Freezes. -/
def countFreeze (s : State) : State := s.onCounters fun c => { c with freezes := rise c.freezes 1 }
/-- Late fetches. -/
def countLateFetch (s : State) : State := s.onCounters fun c => { c with lateFetches := rise c.lateFetches 1 }
/-- Captions truncated. -/
def countCaptionsCut (s : State) : State := s.onCounters fun c => { c with captionsCut := rise c.captionsCut 1 }
/-- Store retries. -/
def countRetry (s : State) : State := s.onCounters fun c => { c with retries := rise c.retries 1 }
/-- Store faults. -/
def countFault (s : State) : State := s.onCounters fun c => { c with faults := rise c.faults 1 }
/-- Corrected store errors. -/
def countCorrected (k : Nat) (s : State) : State := s.onCounters fun c => { c with corrected := rise c.corrected k }

/-! ## Ports, notices and replies -/

/-- A port's state. -/
def Ports.get (ps : Ports) : Port → PortState
  | .a => ps.a
  | .b => ps.b
  | .n => ps.n

/-- Replace a port's state. -/
def Ports.put (ps : Ports) (p : Port) (x : PortState) : Ports :=
  match p with
  | .a => { ps with a := x }
  | .b => { ps with b := x }
  | .n => { ps with n := x }

/-- Change one port. -/
def State.onPort (s : State) (p : Port) (f : PortState → PortState) : State :=
  s.onPorts fun ps => ps.put p (f (ps.get p))

/-- A free transmitter begins the oldest waiting reply, or else the line at the head of the notice queue, to which it
appends the drop count (R186, R189). -/
def PortState.pump (x : PortState) : PortState :=
  match x.sending with
  | some _ => x
  | none => match x.replies with
    | r :: rs => { x with sending := some ⟨r.text, r.address.toList, r.effect⟩, replies := rs }
    | [] => match x.notices with
      | l :: ls => { x with sending := some ⟨l.text x.drops, l.addresses, .nothing⟩, notices := ls, drops := 0 }
      | [] => x

/-- The groups of a station include a group (R183). -/
def Groups.has (g : Groups) : Group → Bool
  | .cuts => g.cuts
  | .pacing => g.pacing
  | .faults => g.faults
  | .ingest => g.ingest
  | .watch => g.watch
  | .setup => g.setup

/-- The station is in a port's audience for a group (R188). -/
def Station.hears (st : Station) (p : Port) (g : Group) : Bool :=
  st.groups.has g
    && (match st.port with
      | .only q => q = p
      | .any => st.current = some p)
    && (p ≠ .n || st.address.isSome)

/-- A port's audience for a group (R188). -/
def Ports.audience (ps : Ports) (p : Port) (g : Group) : List Station := ps.table.filter fun st => st.hears p g

/-- One port takes its copy of a notice: none without an audience; dropped and counted when 32 lines wait; else at the
back of the queue, and a free transmitter goes on (R188, R189). On Port N it records one address per station of the
audience, also where two stations have the same one: the model's choice (log entry 60). -/
def raiseOn (n : Notice) (s : State) (p : Port) : State :=
  let audience := s.ports.audience p n.group
  if audience.isEmpty then s
  else if Config.noticeQueue ≤ (s.ports.get p).notices.length then
    (s.onPort p fun x => { x with drops := satAdd 65535 x.drops 1 }).onCounters
      fun c => { c with dropped := rise c.dropped 1 }
  else s.onPort p fun x => PortState.pump
    { x with notices := x.notices ++ [⟨n, if p = .n then audience.filterMap (·.address) else []⟩] }

/-- A notice is raised: each port forms its audience and queues its copy (R188). -/
def raise (n : Notice) (s : State) : State := raiseOn n (raiseOn n (raiseOn n s .a) .b) .n

/-- A notice under the error pollution rule: raised when the record's error noticed mark is clear, which it sets; nothing
when the mark is set (R190). Nothing either when the record has left the line, and the mark with it: the model's reading
(log entry 61). -/
def raiseGoverned (i : Isn) (n : Notice) (s : State) : State :=
  match s.line.find i with
  | none => s
  | some r =>
    if r.noticed then s else raise n (s.onLine fun l => l.modify i fun r => { r with noticed := true })

/-- Hand a reply to a port's transmitter (R186). -/
def queueReply (p : Port) (r : Reply) (s : State) : State :=
  s.onPort p fun x => PortState.pump { x with replies := x.replies ++ [r] }

/-! ## Requests at their owners -/

/-- The owner named by a request word takes the request that a port has routed to it: the part runs, the port's
request is of the row's form and has not reached its owner yet. Where nothing of the form has been routed there is
nothing to take, and the state stays as it is (log entry 8). -/
def takeRouted (p : Port) (form : Request → Bool) (take : Request → State → State) (s : State) : State :=
  if s.runs then
    match (s.ports.get p).current with
    | none => s
    | some c =>
      if !c.reached && form c.req then
        take c.req (s.onPort p fun x => { x with current := some { c with reached := true } })
      else s
  else s

/-- The value of a key. -/
def Request.key (r : Request) (k : String) : Option String := r.keys.lookup k

/-- The request carries a key. -/
def Request.has (r : Request) (k : String) : Bool := (r.key k).isSome

/-- Every key of the request is one of these. -/
def Request.onlyKeys (r : Request) (ks : List String) : Bool := r.keys.all fun f => ks.contains f.1

end Sys2Proof.Machine
end

