-- ==== Sys2Proof/Machine/Arbiter.lean ====
section
/-! DEFINITION. The Store Arbiter's queues, grants and moving of bytes (sections 8.1 and 8.2). -/

namespace Sys2Proof.Machine

/-! ## Pages and blocks (R148) -/

/-- Where page `p` begins. -/
def pageBase (p : Nat) : Nat := p * Config.pageBytes

/-- Where block `b` of the cover area begins. -/
def blockBase (b : Nat) : Nat := (Config.pages + b) * Config.pageBytes

/-- The essence at a page or block, for the kinds and sizes asked. -/
def readEssence (m : Memory) (base length video : Nat) (audio : Bool) (captions : Nat) : Essence where
  video := m.readRun (base + Config.videoAt) video
  audio := if audio then some (m.readRun base (length * 64)) else none
  captions := m.readRun (base + Config.captionsAt) captions

/-- Write the kinds a slice carries into a page or block; the others are not written. -/
def writeEssence (m : Memory) (base : Nat) (e : Essence) : Memory :=
  let m := m.write base (e.audio.getD [])
  let m := m.write (base + Config.captionsAt) e.captions
  m.write (base + Config.videoAt) e.video

/-- The 64-byte descriptor of a cover block: video bytes, audio present, caption bytes. The manual gives its content
and not the places within it; these are the model's (log entry 9). -/
def descriptorOf (e : Essence) : Bytes :=
  be32 (BitVec.ofNat 32 e.video.length) ++ [if e.audio.isSome then 1 else 0] ++ be16 e.captions.length
    ++ List.replicate 57 0

/-- The clip slice at a cover block: the descriptor first, then the kinds it names (R148). -/
def readClip (m : Memory) (base length : Nat) : Essence :=
  let d := m.readRun (base + Config.descriptorAt) 64
  readEssence m base length (beValue (fieldBytes d 0 4)) (beValue (fieldBytes d 4 1) ≠ 0) (beValue (fieldBytes d 5 2))

/-- Bytes of the same length whose values are open (log entry 3). -/
def residueOf (draw offset : Nat) (bs : Bytes) : Bytes :=
  (List.range bs.length).map fun i => Config.writeResidue draw (offset + i)

/-- What an access that writes leaves in its page or block when it does not end DONE: open values (log entry 3). -/
def essenceResidue (draw : Nat) (e : Essence) : Essence where
  video := residueOf draw Config.videoAt e.video
  audio := e.audio.map (residueOf draw 0)
  captions := residueOf draw Config.captionsAt e.captions

/-- What a read finds at its grant (R159); nothing for a write. -/
def StoreJob.read (job : StoreJob) (m : Memory) (length : Nat) : Option Essence :=
  match job with
  | .fetch _ _ page _ _ video audio captions => some (readEssence m (pageBase page) length video audio captions)
  | .coverRead _ _ block _ => some (readClip m (blockBase block) length)
  | .ingestWrite _ _ _ | .loadWrite _ _ _ _ => none

/-- The memory after the store has taken a write (R149); a cover-load write writes the descriptor too (R148). -/
def StoreJob.write (job : StoreJob) (m : Memory) : Memory :=
  match job with
  | .ingestWrite page _ e => writeEssence m (pageBase page) e
  | .loadWrite _ block _ e =>
    (writeEssence m (blockBase block) e).write (blockBase block + Config.descriptorAt) (descriptorOf e)
  | .fetch _ _ _ _ _ _ _ _ | .coverRead _ _ _ _ => m

/-- The memory after a write that did not end DONE (log entry 3). -/
def StoreJob.spoil (job : StoreJob) (draw : Nat) (m : Memory) : Memory :=
  match job with
  | .ingestWrite page _ e => writeEssence m (pageBase page) (essenceResidue draw e)
  | .loadWrite _ block _ e =>
    (writeEssence m (blockBase block) (essenceResidue draw e)).write (blockBase block + Config.descriptorAt)
      (residueOf draw Config.descriptorAt (descriptorOf e))
  | .fetch _ _ _ _ _ _ _ _ | .coverRead _ _ _ _ => m

/-! ## Queues (R150, R151) -/

/-- The queue a request belongs to, changed. -/
def Store.onQueue (st : Store) (job : StoreJob) (f : List StoreReq → List StoreReq) : Store :=
  match job with
  | .fetch true _ _ _ _ _ _ _ => { st with demand := f st.demand }
  | .ingestWrite _ _ _ => { st with ingest := f st.ingest }
  | .coverRead _ _ _ _ => { st with cover := f st.cover }
  | .loadWrite _ _ _ _ => { st with load := f st.load }
  | .fetch false _ _ _ _ _ _ _ => { st with fetch := f st.fetch }

/-- The buffer slot a fetch names. -/
def StoreJob.fetchSlot : StoreJob → Option Nat
  | .fetch _ _ _ _ slot _ _ _ => some slot
  | _ => none

/-- The request fetches for a buffer slot. -/
def StoreReq.fetchesFor (slot : Nat) (r : StoreReq) : Bool := r.job.fetchSlot = some slot

/-- A fetch that arrives for a buffer slot removes a fetch still queued for it, in either class (R151). -/
def Store.dropFetch (st : Store) (job : StoreJob) : Store :=
  match job.fetchSlot with
  | none => st
  | some slot =>
    { st with
      demand := st.demand.filter fun r => !r.fetchesFor slot
      fetch := st.fetch.filter fun r => !r.fetchesFor slot }

/-- A request arrives and joins its queue at the back (R151). -/
def Store.arrive (st : Store) (job : StoreJob) : Store :=
  let st := st.dropFetch job
  { st.onQueue job fun q => q ++ [⟨job, st.arrivals + 1, 0, 0, false⟩] with arrivals := st.arrivals + 1 }

/-! ## Grants (R152, R153) -/

/-- The queued request is aged (R152). -/
def StoreReq.aged (r : StoreReq) : Bool := 8 ≤ r.passed

/-- The request of a list that arrived earliest. -/
def earliest : List StoreReq → Option StoreReq
  | [] => none
  | r :: rs => match earliest rs with
    | none => some r
    | some e => if r.arrival ≤ e.arrival then some r else some e

/-- The request the next grant takes: the head of the demand queue; else the aged request that arrived earliest; else
the head of the non-empty queue of best priority (R152). -/
def Store.choice (st : Store) : Option StoreReq :=
  match st.demand with
  | r :: _ => some r
  | [] =>
    let others := st.ingest ++ st.cover ++ st.load ++ st.fetch
    (earliest (others.filter StoreReq.aged)).or others.head?

/-- A request leaves its queue. -/
def Store.remove (st : Store) (r : StoreReq) : Store :=
  st.onQueue r.job fun q => q.filter fun x => x.arrival ≠ r.arrival

/-- Every request that stays queued outside the demand queue has been passed over once more (R152). -/
def Store.passOver (st : Store) : Store :=
  let up := List.map fun (r : StoreReq) => { r with passed := r.passed + 1 }
  { st with ingest := up st.ingest, cover := up st.cover, load := up st.load, fetch := up st.fetch }

/-- Grant the next request, when no access is in flight and none is outstanding from before a restart (R152, R153,
R161). A read sees the memory as it is at the grant (R159). -/
def Store.grantNext (st : Store) (now length : Nat) : Store :=
  if st.flight.isSome || st.outstanding.isSome then st
  else match st.choice with
    | none => st
    | some r =>
      { (st.remove r).passOver with
        flight := some ⟨r, st.grants + 1, now, r.job.read st.mem length⟩
        grants := st.grants + 1 }

/-- The Arbiter grants the next request if it can. -/
def grantNext (s : State) : State := s.onStore fun st => st.grantNext s.now s.sliceLength

/-- A request reaches the Arbiter (R151, R153). -/
def request (job : StoreJob) (s : State) : State := grantNext (s.onStore fun st => st.arrive job)

/-- The prefetch of a buffer slot is in flight: what the Arbiter answers IN-FLIGHT to (R151). -/
def Store.prefetchInFlight (st : Store) (slot : Nat) : Bool :=
  !st.fetch.any (StoreReq.fetchesFor slot)
    && (match st.flight with
      | some ⟨⟨.fetch false _ _ _ x _ _ _, _, _, _, _⟩, _, _, _⟩ => x = slot
      | _ => false)

/-- The Playout Unit withdraws the prefetch of a buffer slot, if it is queued (R151). -/
def Store.withdraw (st : Store) (slot : Nat) : Store :=
  { st with fetch := st.fetch.filter fun r => !r.fetchesFor slot }

end Sys2Proof.Machine
end

