-- ==== Sys2Proof/Machine/Buffer.lean ====
section
/-! DEFINITION. The playout buffer (section 6.1): the wanted list, the re-plan, fetches and cover reads, and what their
completions and the Hold Line's change reports do to the buffer slots. -/

namespace Sys2Proof.Machine

/-- The slot bound to a record. -/
def Playout.slotOf (p : Playout) (i : Isn) : Option Nat := p.slots.findIdx? fun b => b.isn = some i

/-- An EMPTY slot: of several the lowest-numbered, which is the model's choice (R111, log entry 53). -/
def Playout.emptySlot (p : Playout) : Option Nat := p.slots.findIdx? fun b => b.phase = .empty

/-- The buffer slot bound to a record. -/
def Playout.bufOf (p : Playout) (i : Isn) : Option BufSlot := p.slots.find? fun b => b.isn = some i

/-- The state of the slot bound to a record. -/
def Playout.phaseOf (p : Playout) (i : Isn) : Option BufPhase := (p.bufOf i).map fun b => b.phase

/-- The cover read state of the slot bound to a record. -/
def Playout.coverOf (p : Playout) (i : Isn) : Option CoverRead := (p.bufOf i).map fun b => b.cover

/-- The state of a buffer slot. -/
def Playout.phaseAt (p : Playout) (i : Nat) : BufPhase := ((p.slots[i]?).getD .empty).phase

/-- The cover read state of a buffer slot. -/
def Playout.coverAt (p : Playout) (i : Nat) : CoverRead := ((p.slots[i]?).getD .empty).cover

/-- Change one buffer slot. -/
def onBuf (i : Nat) (f : BufSlot → BufSlot) (s : State) : State :=
  s.onPlay fun p => { p with slots := listModify f i p.slots }

/-! ## Cover reads (R126) -/

/-- The entry of a cover window, 1 to 8. -/
def Store.window (st : Store) (n : Nat) : WindowEntry := (st.windows[n - 1]?).getD .undefinedEntry

/-- The clip slice index of a position: modulo the clip count when the window loops, else held at the last (R126). -/
def WindowEntry.clipIndex (w : WindowEntry) (pos : Nat) : Option Nat :=
  match w.st, w.defn with
  | .ready, some d => if d.loop then some (pos % w.clips) else some (min pos (w.clips - 1))
  | _, _ => none

/-- The unit reads the window's entry for a committed record that holds slot `i`, and sends a cover read, or marks the
read FAILED when the window is not READY (R126). -/
def issueCover (i : Nat) (r : Rec) (n pos : Nat) (s : State) : State :=
  let w := s.store.window n
  match w.clipIndex pos, w.defn with
  | some p, some d =>
    request (.coverRead r.isn n (d.base + p) i) (onBuf i (fun b => { b with cover := .reading p }) s)
  | _, _ => onBuf i (fun b => { b with cover := .failed .notReady none }) s

/-- The window a record covers with. -/
def Rec.coverWindow (r : Rec) : Option Nat :=
  match r.fields.disp with
  | .cover (.window n) _ => some n
  | _ => none

/-- The cover read of the committed lookahead once it holds a slot in which none has been issued (R126). -/
def lookaheadCover (s : State) : State :=
  match s.play.lookahead.bind s.line.find, s.play.run with
  | some r, some run =>
    match r.coverWindow, s.play.slotOf r.isn with
    | some n, some i =>
      if r.waits && s.play.coverAt i = .none then issueCover i r n run.pos s else s
    | _, _ => s
  | _, _ => s

/-! ## The wanted list and the re-plan (R111 to R113) -/

/-- The record emitting in the current period, if one began. -/
def HoldLine.emitting (l : HoldLine) : List Rec := l.records.filter fun r => r.life = .emitting && !r.ended

/-- The wanted list: the emitting record, the due slice and up to D further kept records (R111). -/
def wanted (s : State) : List Rec := s.line.emitting ++ s.line.waiting.take (1 + s.force.prefetch)

/-- The record is the due slice. -/
def HoldLine.isDue (l : HoldLine) (r : Rec) : Bool := l.due.any fun d => d.isn = r.isn

/-- A listed record can take a slot: not in WRITING, and not in the prefetch-fault list unless it is due (R111). -/
def canTakeSlot (s : State) (r : Rec) : Bool :=
  r.life != .writing && (s.line.isDue r || !s.play.faults.contains r.isn)

/-- The listed records that are served: those that can take a slot, up to the four slots, the newest waiting (R111, log
entry 10). -/
def served (s : State) : List Rec := ((wanted s).filter (canTakeSlot s)).take 4

/-- Slots of records that are not served become EMPTY, and the prefetch-fault list loses what is no longer wanted (R110,
R111, R114). -/
def freeSlots (s : State) : State :=
  let keep := (served s).map (·.isn)
  let list := (wanted s).map (·.isn)
  s.onPlay fun p =>
    { p with
      slots := p.slots.map fun b => if b.isn.any (fun i => keep.contains i) then b else .empty
      faults := p.faults.filter fun i => list.contains i }

/-- The fetch of a record for a slot, at the sizes of the record (R150). -/
def Rec.fetchJob (r : Rec) (demand : Bool) (page slot : Nat) : StoreJob :=
  .fetch demand r.isn page r.edit slot r.videoBytes r.audio r.captBytes

/-- Issue a fetch of a record for slot `i` (R112, R113). A demand fetch takes the record off the prefetch-fault list. -/
def issueFetch (demand : Bool) (i page : Nat) (r : Rec) (s : State) : State :=
  let bound := onBuf i (fun b => { b with isn := some r.isn, phase := .fetching demand r.edit }) s
  request (r.fetchJob demand page i)
    (if demand then bound.onPlay fun p => { p with faults := p.faults.filter (· ≠ r.isn) } else bound)

/-- Serve one listed record after the emitting one (R111 to R113): bind it without a fetch when it has no page; give the
due slice a demand fetch, withdrawing a queued prefetch of it; give another written record a prefetch. -/
def serve (s : State) (r : Rec) : State :=
  match (s.play.slotOf r.isn).or s.play.emptySlot with
  | none => s
  | some i =>
    match r.page, s.play.phaseAt i with
    | none, .empty => onBuf i (fun b => { b with isn := some r.isn, phase := .ready r.edit .empty }) s
    | none, _ => s
    | some page, .empty =>
      if s.line.isDue r then issueFetch true i page r s
      else if r.life = .held then issueFetch false i page r s
      else s
    | some page, .fetching false _ =>
      if s.line.isDue r && !s.store.prefetchInFlight i then
        issueFetch true i page r (s.onStore fun st => st.withdraw i)
      else s
    | some _, _ => s

/-- The re-plan (R111): slots are freed, the listed records served in ISN order, and the committed lookahead's cover
read issued once it holds a slot. -/
def replan (s : State) : State :=
  lookaheadCover (((served s).filter Rec.waits).foldl serve (freeSlots s))

/-! ## Completions (R114, R126) -/

/-- A fetch completion: it matches when a FETCHING slot is bound to its ISN with its edit count, and is discarded
otherwise. `data` is none for a FAULT (R114). -/
def fetchCompleted (isn : Isn) (edit : Byte) (data : Option Essence) (s : State) : State :=
  match s.play.slotOf isn with
  | none => s
  | some i =>
    match s.play.phaseAt i, data with
    | .fetching _ e, some essence =>
      if e = edit then replan (onBuf i (fun b => { b with phase := .ready edit essence }) s) else s
    | .fetching demand e, none =>
      if e ≠ edit then s
      else if demand then replan (onBuf i (fun b => { b with phase := .faulted }) s)
      else replan ((onBuf i (fun _ => .empty) s).onPlay fun p => { p with faults := p.faults ++ [isn] })
    | _, _ => s

/-- What a cover read brought. -/
inductive CoverOutcome
  | clip (e : Essence)
  | fault
  | cleared

/-- A cover read completion, for the record in whose slot the read is awaited (R126). -/
def coverCompleted (isn : Isn) (outcome : CoverOutcome) (s : State) : State :=
  match s.play.slotOf isn with
  | none => s
  | some i =>
    match s.play.coverAt i, outcome with
    | .reading p, .clip e => onBuf i (fun b => { b with cover := .done p e }) s
    | .reading p, .fault => onBuf i (fun b => { b with cover := .failed .fault (some p) }) s
    | .reading p, .cleared => onBuf i (fun b => { b with cover := .cleared p }) s
    | _, _ => s

/-! ## Change reports (R55, R115) -/

/-- A record that stays kept with new rendering fields: a READY slot takes the new edit count; a FETCHING slot takes it
and a new fetch of the same class is issued with it. Records made passed or kept again are settled by the re-plan
(R115). -/
def renderingChanged (s : State) (i : Isn) : State :=
  match s.play.slotOf i, s.line.find i with
  | some k, some r =>
    match s.play.phaseAt k, r.page with
    | .ready _ e, _ => onBuf k (fun b => { b with phase := .ready r.edit e }) s
    | .fetching demand _, some page => issueFetch demand k page r s
    | _, _ => s
  | _, _ => s

/-- The Playout Unit takes a change report whole (R115): `rerendered` are the records that stayed kept. A report without
a change is none. -/
def takeChanges (changed : Bool) (rerendered : List Isn) (s : State) : State :=
  if changed then replan (rerendered.foldl renderingChanged s) else s

end Sys2Proof.Machine
end

