-- ==== Sys2Proof/Machine/Operands.lean ====
section
/-! DEFINITION. The forms of a request's values: numbers, ISNs, timecodes, and the action fields of R71. -/

namespace Sys2Proof.Machine

/-- The number a key carries, within a range. -/
def Request.num (r : Request) (k : String) (lo hi : Nat) : Option Nat :=
  (r.key k).bind fun v => numberIn lo hi v.toList

/-- The ISN a key carries. -/
def Request.isn (r : Request) (k : String) : Option Isn := (r.num k 0 4294967295).map (BitVec.ofNat 32)

/-- The timecode a key carries, at the slice rate in force. -/
def Request.timecode (r : Request) (rate : Nat) (k : String) : Option Timecode :=
  (r.key k).bind fun v => timecodeOf rate v.toList

/-- The word a key carries, or a default when the key is absent. -/
def Request.wordOr (r : Request) (k default : String) : String := (r.key k).getD default

/-- A cover source: SILENCE, TONE, WINDOW1 to WINDOW8 (R71). -/
def coverSourceOf : String → Option CoverSource
  | "SILENCE" => some .silence
  | "TONE" => some .tone
  | "WINDOW1" => some (.window 1)
  | "WINDOW2" => some (.window 2)
  | "WINDOW3" => some (.window 3)
  | "WINDOW4" => some (.window 4)
  | "WINDOW5" => some (.window 5)
  | "WINDOW6" => some (.window 6)
  | "WINDOW7" => some (.window 7)
  | "WINDOW8" => some (.window 8)
  | _ => none

/-- A cover source as sent. -/
def CoverSource.text : CoverSource → String
  | .silence => "SILENCE"
  | .tone => "TONE"
  | .window n => "WINDOW" ++ toString n

/-- A video option (R71): true is AUDIO+VIDEO. -/
def videoOptionOf : String → Option Bool
  | "AUDIO" => some false
  | "AUDIO+VIDEO" => some true
  | _ => none

/-- A video option as sent. -/
def videoOptionText (b : Bool) : String := if b then "AUDIO+VIDEO" else "AUDIO"

/-- The word of an action (R71). -/
inductive ActionWord
  | drop | cover | mute
  deriving DecidableEq, Repr

/-- ACTION= (R71). -/
def actionWordOf : String → Option ActionWord
  | "DROP" => some .drop
  | "COVER" => some .cover
  | "MUTE" => some .mute
  | _ => none

/-- KEEP or REMOVE. -/
def keepRemoveOf : String → Option Bool
  | "KEEP" => some true
  | "REMOVE" => some false
  | _ => none

/-- A mute mask: sixteen letters with at least one Y (R71). -/
def muteMaskOf (v : String) : Option (BitVec 16) := (maskOf v.toList).filter (· ≠ 0)

/-- The keys of R71. -/
def actionKeys : List String := ["ACTION", "COVER", "COVERV", "MASK", "CAPTIONS"]

/-- The action fields a request carries, each absent or in form. -/
structure ActionFields where
  action : Option ActionWord
  cover : Option CoverSource
  video : Option Bool
  mask : Option (BitVec 16)
  captions : Option Bool
  deriving DecidableEq, Repr

/-- A key that is absent, or in form. -/
def optionalKey (r : Request) (k : String) (form : String → Option α) : Option (Option α) :=
  match r.key k with
  | none => some none
  | some v => (form v).map some

/-- The action fields of a request, or none when a value is out of form (R71). -/
def Request.actionFields (r : Request) : Option ActionFields := do
  let action ← optionalKey r "ACTION" actionWordOf
  let cover ← optionalKey r "COVER" coverSourceOf
  let video ← optionalKey r "COVERV" videoOptionOf
  let mask ← optionalKey r "MASK" muteMaskOf
  let captions ← optionalKey r "CAPTIONS" keepRemoveOf
  some ⟨action, cover, video, mask, captions⟩

/-- The fields fit the action that is in force with them: COVER= and COVERV= only with COVER, MASK= only with MUTE,
CAPTIONS= not with DROP (R71). -/
def ActionFields.fit (f : ActionFields) : ActionWord → Bool
  | .drop => f.cover.isNone && f.video.isNone && f.mask.isNone && f.captions.isNone
  | .cover => f.mask.isNone
  | .mute => f.cover.isNone && f.video.isNone

/-- The action and captions of a new cut or a template, with the defaults of R71; none when they are not consistent. -/
def ActionFields.forNew (f : ActionFields) : Option (CutAction × Bool) :=
  let w := f.action.getD .drop
  if !f.fit w then none
  else match w with
    | .drop => some (.drop, false)
    | .cover => some (.cover (f.cover.getD .tone) (f.video.getD false), f.captions.getD true)
    | .mute => f.mask.map fun m => (.mute m, f.captions.getD true)

/-- The word of a cut's action. -/
def CutAction.word : CutAction → ActionWord
  | .drop => .drop
  | .cover _ _ => .cover
  | .mute _ => .mute

/-- The action and captions of a cut after an AMEND, or none when the cut as it would stand is not consistent (R80). -/
def ActionFields.forAmend (f : ActionFields) (action : CutAction) (captions : Bool) : Option (CutAction × Bool) :=
  let w := f.action.getD action.word
  let keptCaptions := if action.word = .drop then f.captions.getD true else f.captions.getD captions
  if !f.fit w then none
  else match w, action with
    | .drop, _ => some (.drop, false)
    | .cover, .cover src vid => some (.cover (f.cover.getD src) (f.video.getD vid), keptCaptions)
    | .cover, _ => some (.cover (f.cover.getD .tone) (f.video.getD false), keptCaptions)
    | .mute, .mute m => some (.mute (f.mask.getD m), keptCaptions)
    | .mute, _ => f.mask.map fun m => (.mute m, keptCaptions)

/-- ACTION= as sent. -/
def CutAction.text : CutAction → String
  | .drop => "DROP"
  | .cover _ _ => "COVER"
  | .mute _ => "MUTE"

/-- COVER=, COVERV= and MASK= of an action, as sent. -/
def CutAction.detail : CutAction → List Field
  | .drop => []
  | .cover src vid => [("COVER", .word src.text), ("COVERV", .word (videoOptionText vid))]
  | .mute m => [("MASK", .mask m)]

end Sys2Proof.Machine
end

