-- ==== Sys2Proof/Machine/Ports.lean ====
section
/-! DEFINITION. The Control Ports (chapter 10): lines, the request queues, enrolment and permission, the forming of
replies, and the commands SERIAL_CHARACTER, DATAGRAM, PORT_RESET, COUNTERS and COUNTERS_CLEAR. -/

namespace Sys2Proof.Machine

/-! ## Taking a line -/

/-- A station may send requests on a port: its port is that port, or ANY (R185). -/
def Station.mayUse (st : Station) (p : Port) : Bool := st.port = .only p || st.port = .any

/-- The entry of the table in force that enrols a station on a port (R185). -/
def Ports.enrolled (ps : Ports) (p : Port) (station : Nat) : Option Station :=
  ps.table.find? fun st => st.station = station && st.mayUse p

/-- The binding state of a station whose request has passed the enrolment check (R183, R185). -/
def Station.bind (st : Station) (p : Port) (address : Option Nat) : Station :=
  { st with
    current := if st.port = .any then some p else st.current
    address := if p = .n then address else st.address }

/-- Update the binding state of the enrolled station, if there is one (R185). -/
def Ports.bindStation (ps : Ports) (p : Port) (station : Nat) (address : Option Nat) : Ports :=
  { ps with table := ps.table.map fun st =>
      if st.station = station && st.mayUse p then st.bind p address else st }

/-- The permission a request needs holds (R184). STATUS and PORT-RESET need none. -/
def Request.permitted (r : Request) (ps : Perms) : Bool :=
  match r.word with
  | .dump | .markIn | .markOut | .cut | .amend | .revoke | .unwatch => ps.cut
  | .watch => if r.onlyKeys ["W"] then ps.view else ps.cut
  | .target | .engage | .bypass => ps.pace
  | .window => if r.onlyKeys ["W"] then ps.view else ps.setup
  | .load | .clear | .set | .save | .profile | .restart => ps.setup
  | .counters => if r.has "CLEAR" then ps.setup else ps.view
  | .cuts | .slice | .param => ps.view
  | .status | .portReset => true

/-- The request goes to its owner, and the port's next line waits (R181, R184). -/
def route (p : Port) (r : Request) (s : State) : State :=
  s.onPort p fun x => { x with current := some ⟨r, false⟩ }

/-- The reply of a line that goes no further than its port (R185). -/
def portReply (result : ResultWord) (tag : Option Nat) (address : Option Nat) : Reply :=
  ⟨result, tag, [], .nothing, false, address⟩

/-- The port takes a line: it parses, checks enrolment and permission in this order, and routes (R182, R185). -/
def takeLine (p : Port) (l : QueuedLine) (s : State) : State :=
  match l.request with
  | none => queueReply p (portReply .bad l.tag l.address) s
  | some r =>
    let bound := s.onPorts fun ps => ps.bindStation p r.station l.address
    if r.word = .status then route p r bound
    else match s.ports.enrolled p r.station with
      | none => queueReply p (portReply .notEnrolled (some r.tag) l.address) s
      | some st =>
        if r.permitted st.perms then route p r bound
        else queueReply p (portReply .notPermitted (some r.tag) l.address) bound

/-- A port with no request at its owner takes its next lines, until one has been routed (R181). -/
def takeLines : Nat → Port → State → State
  | 0, _, s => s
  | k + 1, p, s =>
    match (s.ports.get p).current, (s.ports.get p).queue with
    | none, l :: ls => takeLines k p (takeLine p l (s.onPort p fun x => { x with queue := ls }))
    | _, _ => s

/-- A line that has ended joins the request queue; while 8 lines wait it is answered BUSY, or discarded when a BUSY
for an earlier such line still waits (R181). -/
def completeLine (p : Port) (l : QueuedLine) (s : State) : State :=
  let x := s.ports.get p
  if Config.requestQueue ≤ x.queue.length then
    if x.replies.any (·.queueFull) then s
    else queueReply p { portReply .busy l.tag l.address with queueFull := true } s
  else takeLines (Config.requestQueue + 1) p (s.onPort p fun x => { x with queue := x.queue ++ [l] })

/-! ## Answering -/

/-- The owner answers the request of a port: the reply goes to the transmitter with the effect it has once sent, and
the port takes its next line (R181, R186). -/
def answerWith (effect : ReplyEffect) (p : Port) (result : ResultWord) (fields : List Field) (s : State) : State :=
  match (s.ports.get p).current with
  | none => s
  | some c =>
    takeLines Config.requestQueue p
      (queueReply p ⟨result, some c.req.tag, fields, effect, false, c.req.address⟩
        (s.onPort p fun x => { x with current := none }))

/-- An answer with no further effect. -/
def answer (p : Port) (result : ResultWord) (fields : List Field) (s : State) : State :=
  answerWith .nothing p result fields s

/-! ## Characters and datagrams -/

/-- Append a character, kept while the line holds fewer than 240 (R180). -/
def PartialLine.add (l : PartialLine) (c : Byte) : PartialLine :=
  if l.chars.length < Config.lineLength then { l with chars := l.chars ++ [c] } else { l with overlong := true }

/-- A byte is printable: 0x20 to 0x7E (R180). -/
def isPrintableByte (c : Byte) : Bool := 32 ≤ c.toNat && c.toNat ≤ 126

/-- The carriage return before, when it turns out not to be followed by a line feed (R180). -/
def PartialLine.strayReturn (l : PartialLine) : PartialLine :=
  if l.cr then { l.add 13 with bad := true, cr := false } else l

/-- A received character other than a line feed (R180). -/
def PartialLine.take (l : PartialLine) (c : Byte) : PartialLine :=
  let l := l.strayReturn
  if c = 13 then { l with cr := true }
  else
    let l := l.add c
    { l with bad := l.bad || !isPrintableByte c }

/-- SERIAL_CHARACTER (R180): a line feed ends the line, which is empty and discarded, complete, over-long or
malformed; any other character joins the partial line. -/
def execSerialCharacter (sp : SerialPort) (c : Byte) (s : State) : Host.Outcome State Fault Refusal :=
  .next <|
    let p := sp.port
    let l := (s.ports.get p).line
    if !s.runs then s
    else if c = 10 then
      let ended := s.onPort p fun x => { x with line := .empty }
      if l.cr && l.chars.isEmpty && !l.bad then ended
      else completeLine p ⟨l.chars, l.overlong, l.bad || !l.cr, none⟩ ended
    else s.onPort p fun x => { x with line := x.line.take c }

/-- The content of a datagram less one carriage return and line feed at its end (R180). -/
def stripEnd (bs : Bytes) : Bytes :=
  match bs.reverse with
  | 10 :: 13 :: rest => rest.reverse
  | _ => bs

/-- DATAGRAM (R179, R180): one line, whose address is noted; an empty one is discarded. -/
def execDatagram (address : Nat) (content : Bytes) (s : State) : Host.Outcome State Fault Refusal :=
  .next <|
    let line := stripEnd content
    if !s.runs || line.isEmpty then s
    else completeLine .n
      ⟨line.take Config.lineLength, Config.lineLength < line.length, !line.all isPrintableByte, some address⟩ s

/-! ## COUNTERS and PORT-RESET -/

/-- The keys of a counter list with their values, in the order of R191; PORTS carries the drop counts (R192). -/
def counterFields (s : State) : String → Option (List Field)
  | "INGEST" => let c := s.counters
    some [("ACCEPTED", .num c.accepted), ("LATE", .num c.late), ("EARLY", .num c.early), ("DUP", .num c.duplicate),
      ("MALFORMED", .num c.malformed), ("CHECKSUM", .num c.checksum), ("PARTIAL", .num c.partials),
      ("LOSS", .num c.losses)]
  | "OUTPUT" => let c := s.counters
    some [("REPEATS", .num c.repeats), ("SKIPS", .num c.skips), ("SHEDS", .num c.sheds), ("FREEZES", .num c.freezes),
      ("LATEFETCH", .num c.lateFetches), ("CAPTRUNC", .num c.captionsCut)]
  | "STORE" => let c := s.counters
    some [("RETRIES", .num c.retries), ("FAULTS", .num c.faults), ("CORRECTED", .num c.corrected)]
  | "PORTS" =>
    some [("NDROPPED", .num s.counters.dropped), ("DROPA", .num s.ports.a.drops), ("DROPB", .num s.ports.b.drops),
      ("DROPN", .num s.ports.n.drops)]
  | _ => none

/-- The reading of the list that LIST= names, with the reply's fields: none when the list is unknown (R192). -/
def listReading (r : Request) (s : State) : Option (List Field) :=
  match r.key "LIST" with
  | none => some []
  | some name => (counterFields s name).map fun fs => ("LIST", .word name) :: fs

/-- COUNTERS without CLEAR= (R192). -/
def answerCounters (p : Port) (r : Request) (s : State) : State :=
  match listReading r s with
  | some (f :: fs) => if r.onlyKeys ["LIST"] then answer p .ok (f :: fs) s else answer p .bad [] s
  | _ => answer p .bad [] s

/-- COUNTERS with CLEAR= (R192): each counter is read, when its list is named, and cleared in one step; the drop counts
are left as they are. -/
def answerCountersClear (p : Port) (r : Request) (s : State) : State :=
  match listReading r s with
  | some fs =>
    if r.onlyKeys ["LIST", "CLEAR"] && r.key "CLEAR" = some "YES" then
      answer p .ok fs (s.onCounters fun _ => .zero)
    else answer p .bad [] s
  | none => answer p .bad [] s

/-- COUNTERS (R192). -/
def execCounters (p : Port) (s : State) : Host.Outcome State Fault Refusal :=
  .next (takeRouted p (fun r => r.word = .counters && !r.has "CLEAR") (answerCounters p) s)

/-- COUNTERS_CLEAR (R192). -/
def execCountersClear (p : Port) (s : State) : Host.Outcome State Fault Refusal :=
  .next (takeRouted p (fun r => r.word = .counters && r.has "CLEAR") (answerCountersClear p) s)

/-- PORT-RESET carries no key; its effect comes when the OK has been sent (R193). -/
def answerPortReset (p : Port) (r : Request) (s : State) : State :=
  if r.keys.isEmpty then answerWith .portReset p .ok [] s else answer p .bad [] s

/-- PORT_RESET (R193). -/
def execPortReset (p : Port) (s : State) : Host.Outcome State Fault Refusal :=
  .next (takeRouted p (fun r => r.word = .portReset) (answerPortReset p) s)

/-- The reset of a port's outgoing side and of its partial line (R193). -/
def PortState.resetOutgoing (x : PortState) : PortState :=
  { x with line := .empty, notices := [], drops := 0 }

/-! ## The station table -/

/-- An entry of a new table takes over the binding state of the same station under the table it replaces, where the
binding still applies: a current port while the port is still ANY, a return address while it is still N or ANY
(R183). -/
def Station.rebind (old : List Station) (st : Station) : Station :=
  match old.find? (fun o => o.station = st.station) with
  | none => st.unbound
  | some o =>
    { st with
      current := if st.port = .any && o.port = .any then o.current else none
      address := if (st.port = .any || st.port = .only .n) && (o.port = .any || o.port = .only .n)
        then o.address else none }

/-- A waiting table comes into force at the Control Ports' period start (R183). -/
def Ports.tableInForce (ps : Ports) : Ports :=
  match ps.waiting with
  | none => ps
  | some t => { ps with table := t.map (Station.rebind ps.table), waiting := none }

end Sys2Proof.Machine
end

