-- ==== Sys2Proof/Machine/HoldLine.lean ====
section
/-! DEFINITION. The Hold Line (chapter 3): write completions, the period-start report, disposition updates, sheds, and
the commands DISPOSITION_UPDATE, SHED_INSTRUCTION, SLICE and STATUS. -/

namespace Sys2Proof.Machine

/-! ## Release (R52) -/

/-- The sweep may take the record: its emission has ended, or it is committed, passed or skipped, and not in WRITING. -/
def Rec.releasable (r : Rec) : Bool :=
  (r.life = .emitting && r.ended) || (r.committed && (!r.kept || r.skipped) && r.life != .writing)

/-- The records at the front that the sweep takes, and the rest. -/
def sweepRecords : List Rec → List Rec × List Rec
  | [] => ([], [])
  | r :: rs =>
    if r.releasable then
      let (gone, rest) := sweepRecords rs
      (r :: gone, rest)
    else ([], r :: rs)

/-- The release sweep: pages return to the tail of the free pool, in order (R46, R52). -/
def HoldLine.sweep (l : HoldLine) : HoldLine :=
  let (gone, rest) := sweepRecords l.records
  { l with records := rest, freePool := l.freePool ++ gone.filterMap (·.page) }

/-! ## Write completions (R45) -/

/-- The record leaves WRITING (R44). -/
def Rec.written (r : Rec) : Rec := { r with life := if r.committed then .committed else .held }

/-- A record that was being written to a page. -/
def Rec.writesTo (page : Nat) (r : Rec) : Bool := r.life = .writing && r.page = some page

/-- The completion of an ingest write to a page: DONE moves the record out of WRITING; FAULT makes it DAMAGED and returns
its page as well; then the sweep runs (R45). -/
def HoldLine.writeCompleted (l : HoldLine) (page : Nat) (done : Bool) : HoldLine :=
  HoldLine.sweep
    { l with
      records := l.records.map fun r =>
        if r.writesTo page then
          if done then r.written else { r.written with cond := .damaged, page := none }
        else r
      freePool := if !done && l.records.any (Rec.writesTo page) then l.freePool ++ [page] else l.freePool }

/-! ## The period-start report (R50, R51) -/

/-- What the Playout Unit reports at a period start (section 3.5). -/
structure Report where
  ended : Option Isn
  begun : Option Isn
  skipped : Option Isn
  commit : Option Isn
  deriving DecidableEq, Repr

/-- A commit reaches a record: the commit mark, and COMMITTED if it is HELD (R44, R51). -/
def Rec.commit (r : Rec) : Rec :=
  { r with committed := true, life := if r.life = .held then .committed else r.life }

/-- Change the record with an ISN, if one is named. -/
def HoldLine.modifyNamed (l : HoldLine) (i : Option Isn) (f : Rec → Rec) : HoldLine :=
  match i with
  | none => l
  | some i => l.modify i f

/-- The commit reaches from A to the commit point; a commit point before A commits nothing new (R51). -/
def HoldLine.commitTo (l : HoldLine) (point : Isn) : HoldLine :=
  if atOrAfter point l.boundary then
    { l with
      records := l.records.map fun r => if l.amendable r && atOrAfter point r.isn then r.commit else r
      commitPoint := some point }
  else l

/-- The steps of a report before the sweep (R50). -/
def HoldLine.reportMarks (l : HoldLine) (rep : Report) : HoldLine :=
  let l := l.modifyNamed rep.ended fun r => { r with ended := true }
  let l := l.modifyNamed rep.skipped fun r => { r.commit with skipped := true }
  let l := l.modifyNamed rep.begun fun r => { r with committed := true, life := .emitting }
  match rep.commit with
  | none => l
  | some point => l.commitTo point

/-- The Hold Line takes a report whole (R50). -/
def HoldLine.report (l : HoldLine) (rep : Report) : HoldLine := (l.reportMarks rep).sweep

/-! ## Disposition updates (R54) -/

/-- What an update gives a record: nothing when the record is late or SHED (R54). -/
def Update.forRec (u : Update) (l : HoldLine) (r : Rec) : Option Assign :=
  if l.amendable r && r.fields.disp ≠ .shed then u.items.find? fun a => a.isn = r.isn else none

/-- An applied update; a disposition change raises the edit count (R54). -/
def Rec.assign (r : Rec) (a : Assign) : Rec :=
  { r with fields := a.fields, cut := a.cut, edit := if a.fields = r.fields then r.edit else r.edit + 1 }

/-- How many of `count` ISNs from `first` on lie before the boundary (R54). -/
def lateCount (first : Isn) (count : Nat) (boundary : Isn) : Nat :=
  if isAfter boundary first then min count (fwd first boundary) else 0

/-- The Hold Line's answer to an update (R54). -/
def Update.answerAt (u : Update) (boundary : Isn) : Answer :=
  let k := lateCount u.first u.count boundary
  ⟨k, if k < u.count then some (u.first + BitVec.ofNat 32 k) else none⟩

/-- The records of the line after an update (R54). -/
def HoldLine.update (l : HoldLine) (u : Update) : HoldLine :=
  { l with records := l.records.map fun r => match u.forRec l r with
      | some a => r.assign a
      | none => r }

/-- The record's disposition fields change under an update. -/
def Update.changes (u : Update) (l : HoldLine) (r : Rec) : Bool :=
  (u.forRec l r).any fun a => a.fields ≠ r.fields

/-- The record stays kept with new rendering fields (R55). -/
def Update.rerenders (u : Update) (l : HoldLine) (r : Rec) : Bool :=
  (u.forRec l r).any fun a => a.fields ≠ r.fields && r.kept && a.fields.disp.kept

/-- The Hold Line takes an update whole, answers the Cut Engine, and reports the changes to the Playout Unit (R54, R55,
R115). -/
def applyUpdate (u : Update) (s : State) : State :=
  let l := s.line
  takeChanges (l.records.any (u.changes l)) ((l.records.filter (u.rerenders l)).map (·.isn))
    ((s.onLine fun l => l.update u).onCuts fun c => { c with update := none, answer := some (u.answerAt l.boundary) })

/-- DISPOSITION_UPDATE (R54). Without an update on its way there is nothing to take. -/
def execDispositionUpdate (s : State) : Host.Outcome State Fault Refusal :=
  .next <|
    match s.runs, s.cuts.update with
    | true, some u => applyUpdate u s
    | _, _ => s

/-! ## Sheds (R56) -/

/-- The record is shed by an instruction naming these ISNs: amendable and kept (R56). -/
def HoldLine.sheds (l : HoldLine) (isns : List Isn) (r : Rec) : Bool :=
  isns.contains r.isn && l.amendable r && r.kept

/-- A shed record (R56). -/
def Rec.shed (r : Rec) : Rec := { r with fields := ⟨.shed, false⟩, cut := none, edit := r.edit + 1 }

/-- The line after a shed instruction (R56). -/
def HoldLine.shed (l : HoldLine) (isns : List Isn) : HoldLine :=
  { l with records := l.records.map fun r => if l.sheds isns r then r.shed else r }

/-- The reason of a shed as sent. -/
def ShedReason.text : ShedReason → String
  | .full => "FULL"
  | .bypass => "BYPASS"
  | .jump => "JUMP"

/-- The Hold Line takes a shed instruction whole: it sheds, counts, raises !SHED, answers and reports (R55, R56). -/
def applyShed (i : ShedInstruction) (s : State) : State :=
  let gone := s.line.records.filter (s.line.sheds i.isns)
  let k := gone.length
  let shed := countSheds k
    ((s.onLine fun l => l.shed i.isns).onPace fun p => { p with answers := p.answers ++ [⟨k, i.forPeriod⟩] })
  match gone with
  | [] => shed
  | r :: _ =>
    takeChanges true []
      (raise ⟨"!SHED", .pacing, .degraded,
        [("ISN", .isn r.isn), ("COUNT", .num k), ("REASON", .word i.reason.text)]⟩ shed)

/-- The Hold Line takes the instruction that reached it first. -/
def takeInstruction (s : State) : State :=
  match s.pace.instructions with
  | [] => s
  | i :: rest => applyShed i (s.onPace fun p => { p with instructions := rest })

/-- SHED_INSTRUCTION (R56). -/
def execShedInstruction (s : State) : Host.Outcome State Fault Refusal :=
  .next (if s.runs then takeInstruction s else s)

/-! ## SLICE (R61) -/

/-- A condition as sent. -/
def Condition.text : Condition → String
  | .intact => "INTACT"
  | .partialSlice => "PARTIAL"
  | .loss => "LOSS"
  | .damaged => "DAMAGED"

/-- A loss reason as sent. -/
def LossReason.text : LossReason → String
  | .missing => "MISSING"
  | .stagingFull => "STAGING_FULL"
  | .noPage => "NO_PAGE"

/-- A lifecycle as sent. -/
def Lifecycle.text : Lifecycle → String
  | .writing => "WRITING"
  | .held => "HELD"
  | .committed => "COMMITTED"
  | .emitting => "EMITTING"

/-- A disposition as sent. -/
def Disposition.text : Disposition → String
  | .keep => "KEEP"
  | .drop => "DROP"
  | .cover _ _ => "COVER"
  | .mute _ => "MUTE"
  | .shed => "SHED"

/-- COVER=, COVERV= and MASK= of a disposition, as sent. -/
def Disposition.detail : Disposition → List Field
  | .cover src vid => [("COVER", .word src.text), ("COVERV", .word (videoOptionText vid))]
  | .mute m => [("MASK", .mask m)]
  | .keep | .drop | .shed => []

/-- An optional field: left out when absent. -/
def optField (k : String) (v : Option Val) : List Field := (v.map fun v => (k, v)).toList

/-- The fields of a record, absent ones left out (R61). -/
def Rec.reportFields (r : Rec) : List Field :=
  [("ISN", Val.isn r.isn)] ++ optField "TS" (r.ts.map Val.isn) ++ optField "TC" (r.tc.map Val.tc)
    ++ optField "PAGE" (r.page.map Val.num)
    ++ [("VIDEO", .num r.videoBytes), ("AUDIO", .word (yesNo r.audio)), ("CAPT", .num r.captBytes),
      ("COND", .word r.cond.text)]
    ++ optField "LOSS" (r.loss.map fun x => .word x.text)
    ++ [("QUIET", .word (yesNo r.quiet)), ("DISP", .word r.fields.disp.text)]
    ++ r.fields.disp.detail
    ++ [("CAPTIONS", .word (keepRemove r.fields.captions))]
    ++ optField "CUT" (r.cut.map Val.num)
    ++ [("STATE", .word r.life.text), ("EDIT", .num r.edit.toNat)]
    ++ (if r.skipped then [("SKIPPED", .word "YES")] else [])

/-- The record a SLICE names: by ISN, or the newest by timecode; the outer none is BAD (R61). -/
def sliceNamed (r : Request) (s : State) : Option (Option Rec) :=
  match r.keys with
  | [("ISN", _)] => (r.isn "ISN").map s.line.find
  | [("TC", _)] => (r.timecode s.force.rate "TC").map fun t => (s.line.withTimecode t).getLast?
  | _ => none

/-- SLICE at the Hold Line (R61). -/
def answerSlice (p : Port) (r : Request) (s : State) : State :=
  match sliceNamed r s with
  | none => answer p .bad [] s
  | some none => answer p .notFound [] s
  | some (some x) => answer p .ok x.reportFields s

/-- SLICE (R61). -/
def execSlice (p : Port) (s : State) : Host.Outcome State Fault Refusal :=
  .next (takeRouted p (fun r => r.word = .slice) (answerSlice p) s)

/-! ## STATUS (R62) -/

/-- A mode as sent. -/
def Mode.text : Mode → String
  | .bypass => "BYPASS"
  | .engaged => "ENGAGED"

/-- A pacing state as sent. -/
def PaceState.text : PaceState → String
  | .idle => "IDLE"
  | .steady => "STEADY"
  | .rebuild => "REBUILD"
  | .trim => "TRIM"

/-- The fields of STATUS (R62). -/
def statusFields (s : State) : List Field :=
  [("H", .num s.line.held), ("T", .num s.force.target), ("B", .num s.force.band), ("MODE", .word s.pace.mode.text),
    ("PACE", .word s.pace.st.text), ("S", .num s.pace.slip), ("A", .isn s.line.boundary),
    ("NEWEST", match s.line.newest with
      | some r => .isn r.isn
      | none => .word "NONE"),
    ("O", .isn s.pack.out), ("RECORDS", .num s.line.count), ("FREE", .num s.line.freePool.length),
    ("REF", .word (if s.timer.locked then "LOCKED" else "HOLDOVER"))]

/-- STATUS carries no field (R62). -/
def answerStatus (p : Port) (r : Request) (s : State) : State :=
  if r.keys.isEmpty then answer p .ok (statusFields s) s else answer p .bad [] s

/-- STATUS (R62). -/
def execStatus (p : Port) (s : State) : Host.Outcome State Fault Refusal :=
  .next (takeRouted p (fun r => r.word = .status) (answerStatus p) s)

end Sys2Proof.Machine
end

