-- ==== Sys2Proof/Machine/CutList.lean ====
section
/-! DEFINITION. The cut list (chapter 4): the effective disposition of an ISN, the states a cut moves through and their
notices, the creation query with its closures, commit reports, and the revoke-all. -/

namespace Sys2Proof.Machine

/-! ## The effective disposition (R66, R84, R85) -/

/-- A cut covers an ISN (R66). -/
def Cut.covers (c : Cut) (x : Isn) : Bool :=
  c.pend != some .revoke && atOrAfter x c.first
    && (match c.last with
      | none => true
      | some o => atOrAfter o x)

/-- The unlisted span covers an ISN, both ends included (R66). -/
def Span.covers (sp : Span) (x : Isn) : Bool := fwd sp.first x ≤ fwd sp.first sp.last

/-- The captions of a COVER or MUTE: REMOVE when any covering cut says REMOVE (R85). -/
def captionsOf (covering : List Cut) : Bool := covering.all (·.captions)

/-- The cuts of a list that are DROP. -/
def dropsOf (cs : List Cut) : List Cut := cs.filter fun c => c.action.word = .drop
/-- The cuts of a list that are COVER. -/
def coversOf (cs : List Cut) : List Cut := cs.filter fun c => c.action.word = .cover
/-- The cuts of a list that are MUTE. -/
def mutesOf (cs : List Cut) : List Cut := cs.filter fun c => c.action.word = .mute

/-- The mute mask of a cut. -/
def Cut.mask (c : Cut) : BitVec 16 :=
  match c.action with
  | .mute m => m
  | .drop | .cover _ _ => 0

/-- The disposition of a COVER cut. -/
def Cut.coverDisp (c : Cut) : Disposition :=
  match c.action with
  | .cover src vid => .cover src vid
  | .drop | .mute _ => .keep

/-- The effective disposition of an ISN and its deciding cut: DROP before COVER before MUTE before KEEP, the deciding cut
being the covering cut of that action with the latest acceptance sequence, the last of the list (R84, R85). -/
def CutEngine.derive (e : CutEngine) (x : Isn) : DispFields × Option Nat :=
  let covering := e.cuts.filter fun c => c.covers x
  let drop := (dropsOf covering).getLast?
  if drop.isSome || e.span.any (·.covers x) then (⟨.drop, false⟩, some ((drop.map (·.id)).getD 0))
  else match (coversOf covering).getLast?, (mutesOf covering).getLast? with
    | some c, _ => (⟨c.coverDisp, captionsOf covering⟩, some c.id)
    | none, some c =>
      (⟨.mute ((mutesOf covering).foldl (fun m c => m ||| c.mask) 0), captionsOf covering⟩, some c.id)
    | none, none => (⟨.keep, true⟩, none)

/-! ## The list -/

/-- A listed cut by id. -/
def CutEngine.cut (e : CutEngine) (id : Nat) : Option Cut := e.cuts.find? fun c => c.id = id

/-- Replace a listed cut by its image. -/
def putCut (c : Cut) (s : State) : State :=
  s.onCuts fun e => { e with cuts := e.cuts.map fun x => if x.id = c.id then c else x }

/-- A cut leaves the list. -/
def removeCut (c : Cut) (s : State) : State :=
  s.onCuts fun e => { e with cuts := e.cuts.filter fun x => x.id ≠ c.id }

/-- The id after an id: after 255 the count goes on from 1 (R65). -/
def idAfter (n : Nat) : Nat := if n = 255 then 1 else n + 1

/-- The next id not listed, from an id on (R65). -/
def freeId (listed : List Nat) : Nat → Nat → Nat
  | 0, n => n
  | k + 1, n => if listed.contains n then freeId listed k (idAfter n) else n

/-! ## Notices and states (R67, R68) -/

/-- A cut's state as sent. -/
def CutState.text : CutState → String
  | .opened => "OPEN"
  | .armed => "ARMED"
  | .active => "ACTIVE"

/-- The !CUT of a cut in a state (R68). -/
def cutNotice (c : Cut) (state : String) (extra : List Field) (sev : Severity) : Notice :=
  ⟨"!CUT", .cuts, sev,
    [("ISN", Val.isn c.first), ("CUT", .num c.id), ("STATE", .word state), ("BY", .num c.station)]
      ++ optField "OUT" (c.last.map Val.isn) ++ extra⟩

/-- The reported boundary passes an ISN: it has been committed (R67). -/
def CutEngine.passes (e : CutEngine) (x : Isn) : Bool := isAfter e.boundary x

/-- Where a commit report takes a cut (R87). -/
inductive CutMove
  | done | active | stays
  deriving DecidableEq, Repr

/-- A closed cut whose OUT the boundary has passed is DONE; an OPEN or ARMED one whose IN it has passed is ACTIVE (R87). -/
def CutEngine.moveOf (e : CutEngine) (c : Cut) : CutMove :=
  if c.last.any e.passes then .done
  else if c.st ≠ .active && e.passes c.first then .active
  else .stays

/-- A cut is DONE: it leaves with its notice (R68). -/
def doneCut (c : Cut) (extra : List Field) (s : State) : State :=
  raise (cutNotice c "DONE" extra .concealed) (removeCut c s)

/-- A cut is REVOKED: it leaves with its notice, which names the revoking station (R68). -/
def revokedCut (c : Cut) (revoker : Nat) (s : State) : State :=
  raise (cutNotice c "REVOKED" [("REVOKER", .num revoker)] .concealed) (removeCut c s)

/-- A cut is tested against the reported boundary, with a notice when its state changes (R87). -/
def settleCut (c : Cut) (s : State) : State :=
  match s.cuts.moveOf c with
  | .done => doneCut c [] s
  | .active => raise (cutNotice c "ACTIVE" [] .concealed) (putCut { c with st := .active } s)
  | .stays => s

/-- A cut newly entered, or with its OUT just fixed, is tested and raises one notice with the state it reaches (R67,
R68, R70). -/
def enterState (c : Cut) (extra : List Field) (sev : Severity) (s : State) : State :=
  match s.cuts.moveOf c with
  | .done => doneCut c extra s
  | .active => raise (cutNotice c "ACTIVE" extra sev) (putCut { c with st := .active } s)
  | .stays => raise (cutNotice c c.st.text extra sev) (putCut c s)

/-! ## The creation query (R74, R75) -/

/-- OUT is fixed: the cut is closed and a pending target discarded; OPEN becomes ARMED (R67). -/
def Cut.fixOut (c : Cut) (out : Isn) : Cut :=
  { c with last := some out, target := none, st := if c.st = .opened then .armed else c.st }

/-- Why a new record closes an open-ended cut, with the severity of the notice: its ISN target, its timecode target, or
the open-cut limit (R74, R75). -/
def Cut.closedBy (c : Cut) (isn : Isn) (tc : Option Timecode) (limit : Nat) : Option (String × Severity) :=
  if c.last.isSome || c.pend = some .revoke then none
  else if c.target = some (.isn isn) then some ("MARK-OUT", .concealed)
  else if tc.any (fun t => c.target = some (.tc t)) then some ("TARGET", .concealed)
  else if atOrAfter isn c.first && limit ≤ fwd c.first isn + 1 then some ("AUTO", .attention)
  else none

/-- One open-ended cut is tested against the new record (R74, R75). -/
def closeCut (isn : Isn) (tc : Option Timecode) (s : State) (c : Cut) : State :=
  match c.closedBy isn tc s.force.openLimit with
  | none => s
  | some (reason, sev) =>
    let c := c.fixOut isn
    raise (cutNotice c c.st.text [("REASON", .word reason)] sev) (putCut c s)

/-- The closures that follow the creation query, in acceptance order (R74). -/
def closeCuts (isn : Isn) (tc : Option Timecode) (s : State) : State := s.cuts.cuts.foldl (closeCut isn tc) s

/-! ## Commit reports (R87) and the revoke-all (R88) -/

/-- The unlisted span at a boundary: cleared once its last ISN is passed, and begun at the boundary otherwise (R87). -/
def Span.trimmed (boundary : Isn) (sp : Span) : Option Span :=
  if isAfter boundary sp.last then none
  else if isAfter boundary sp.first then some { sp with first := boundary }
  else some sp

/-- The Cut Engine takes a commit report (R87). Cuts with a pending answer are left for the answer (R70). -/
def commitReport (boundary : Isn) (s : State) : State :=
  let s := s.onCuts fun e => { e with boundary := boundary, span := e.span.bind (Span.trimmed boundary) }
  (s.cuts.cuts.filter fun c => c.pend.isNone).foldl (fun s c => settleCut c s) s

/-- The revoke-all (R88): every listed cut is REVOKED in acceptance order, except that a cut whose answer is pending is
revoked when the answer arrives; the unlisted span is cleared. -/
def revokeAll (s : State) : State :=
  let s := (s.cuts.cuts.filter fun c => c.pend.isNone).foldl (fun s c => revokedCut c 0 s) s
  s.onCuts fun e =>
    { e with span := none, awaiting := e.awaiting.map fun a => { a with revokeAll := true } }

end Sys2Proof.Machine
end

