-- ==== Sys2Proof/Machine/Watches.lean ====
section
/-! DEFINITION. The cue watch table (chapter 9): defining, reporting and removing watches, what a record does to a watch,
and the !WATCH notice. -/

namespace Sys2Proof.Machine

/-- A watch entry, 1 to 4. -/
def CutEngine.watch (e : CutEngine) (n : Nat) : Option Watch := (e.watches[n - 1]?).join

/-- Set a watch entry. -/
def putWatch (n : Nat) (w : Option Watch) (s : State) : State :=
  s.onCuts fun e => { e with watches := listModify (fun _ => w) (n - 1) e.watches }

/-! ## Words -/

/-- POINT= as sent. -/
def WatchPoint.text : WatchPoint → String
  | .ingest => "INGEST"
  | .playout => "PLAYOUT"

/-- DO= as sent. -/
def WatchAction.text : WatchAction → String
  | .notify => "NOTIFY"
  | .markIn _ _ => "MARK-IN"
  | .markOut => "MARK-OUT"
  | .dump => "DUMP"

/-- The match as TC= or ISN=. -/
def Cue.field : Cue → Field
  | .tc t => ("TC", .tc t)
  | .isn n => ("ISN", .isn n)

/-- POINT=. -/
def watchPointOf : String → Option WatchPoint
  | "INGEST" => some .ingest
  | "PLAYOUT" => some .playout
  | _ => none

/-- REPEAT=: true is EVERY. -/
def repeatOf : String → Option Bool
  | "ONCE" => some false
  | "EVERY" => some true
  | _ => none

/-- DO= with the template that the request's action fields form; action fields only with MARK-IN (R171). -/
def Request.watchAction (r : Request) : Option WatchAction :=
  let plain (a : WatchAction) : Option WatchAction := if actionKeys.any r.has then none else some a
  match r.wordOr "DO" "NOTIFY" with
  | "NOTIFY" => plain .notify
  | "MARK-OUT" => plain .markOut
  | "DUMP" => plain .dump
  | "MARK-IN" => (r.actionFields.bind ActionFields.forNew).map fun t => .markIn t.1 t.2
  | _ => none

/-- Exactly one match key (R171). -/
def Request.cue (r : Request) (rate : Nat) : Option Cue :=
  match r.has "TC", r.has "ISN" with
  | true, false => (r.timecode rate "TC").map .tc
  | false, true => (r.isn "ISN").map .isn
  | _, _ => none

/-- The entry and the definition a WATCH asks for, or none for BAD (R171, checks 1 and 2). -/
def Request.watchDef (r : Request) (rate : Nat) : Option (Nat × Watch) := do
  let n ← r.num "W" 1 4
  let cue ← r.cue rate
  let point ← watchPointOf (r.wordOr "POINT" "INGEST")
  let act ← r.watchAction
  let every ← repeatOf (r.wordOr "REPEAT" "ONCE")
  if !r.onlyKeys (["W", "TC", "ISN", "POINT", "DO", "REPEAT"] ++ actionKeys) then none
  else if point = .playout && act ≠ .notify then none
  else some (n, ⟨cue, point, act, every, false, false, 0, r.station⟩)

/-- An ISN match is still to come: after the head, or after the last begun ISN (R171, check 3). -/
def CutEngine.stillToCome (e : CutEngine) (w : Watch) : Bool :=
  match w.cue, w.point with
  | .tc _, _ => true
  | .isn n, .ingest => isAfter n e.head
  | .isn n, .playout => match e.lastBegun with
    | none => true
    | some b => isAfter n b

/-- WATCH that defines (R171). -/
def takeWatch (p : Port) (r : Request) (s : State) : State :=
  match r.watchDef s.force.rate with
  | none => answer p .bad [] s
  | some (n, w) =>
    if s.cuts.stillToCome w then
      answer p .ok [("W", .num n), ("STATE", .word "ARMED")] (putWatch n (some w) s)
    else answer p .tooLate [] s

/-- The template's keys of a MARK-IN watch, as R71 names them. -/
def WatchAction.template : WatchAction → List Field
  | .markIn a captions =>
    [("ACTION", .word a.text)] ++ a.detail
      ++ (if a.word = .drop then [] else [("CAPTIONS", .word (keepRemove captions))])
  | .notify | .markOut | .dump => []

/-- The fields of a defined watch (R172). -/
def Watch.reportFields (w : Watch) : List Field :=
  [w.cue.field, ("POINT", .word w.point.text), ("DO", .word w.act.text),
    ("REPEAT", .word (if w.every then "EVERY" else "ONCE")), ("STATE", .word (if w.spent then "SPENT" else "ARMED")),
    ("HITS", .num w.hits), ("BY", .num w.by_)] ++ w.act.template

/-- WATCH with W= alone (R172). -/
def takeWatchReport (p : Port) (r : Request) (s : State) : State :=
  match r.num "W" 1 4 with
  | none => answer p .bad [] s
  | some n => match s.cuts.watch n with
    | none => answer p .ok [("W", .num n), ("DEFINED", .word "NO")] s
    | some w => answer p .ok (("W", .num n) :: w.reportFields) s

/-- UNWATCH (R172). -/
def takeUnwatch (p : Port) (r : Request) (s : State) : State :=
  match (if r.onlyKeys ["W"] then r.num "W" 1 4 else none) with
  | none => answer p .bad [] s
  | some n => match s.cuts.watch n with
    | none => answer p .notFound [] s
    | some _ => answer p .ok [("W", .num n)] (putWatch n none s)

/-! ## Testing (R173) -/

/-- A record matches a watch (R173). -/
def Cue.matches_ (c : Cue) (isn : Isn) (tc : Option Timecode) : Bool :=
  match c with
  | .isn n => n = isn
  | .tc t => tc = some t

/-- The test of a watch against a record: whether it hits, and the watch afterwards (R173, R175). -/
def Watch.test (w : Watch) (isn : Isn) (tc : Option Timecode) : Bool × Watch :=
  let matched := w.cue.matches_ isn tc
  let hit := matched && (!w.every || !w.matchedLast)
  let after := { w with matchedLast := matched }
  if hit then (true, { after with hits := satAdd 65535 w.hits 1, spent := w.spent || !w.every }) else (false, after)

/-- The !WATCH of a hit: its result, the fields of the reply, and SPENT=YES when the hit made the watch SPENT. The match
of an ISN watch is the hit ISN itself (R177). -/
def watchNotice (h : Hit) (result : String) (fields : List Field) (sev : Severity) : Notice :=
  ⟨"!WATCH", .watch, sev,
    [("ISN", Val.isn h.isn), ("W", .num h.watch), ("POINT", .word h.point.text), ("DO", .word h.act.text)]
      ++ (match h.cue with
        | .tc t => [("TC", .tc t)]
        | .isn _ => [])
      ++ [("RESULT", .word result)] ++ fields ++ (if h.spent then [("SPENT", .word "YES")] else [])⟩

/-- The severity of a hit's result (R177). -/
def resultSeverity : ResultWord → Severity
  | .ok => .concealed
  | .late => .degraded
  | _ => .attention

end Sys2Proof.Machine
end

