-- ==== Sys2Proof/Machine/Cuts.lean ====
section
/-! DEFINITION. The Cut Engine's requests (sections 4.3 to 4.11) and watch hits (section 9.4): the commands DUMP, MARK_IN,
MARK_OUT, CUT, AMEND, REVOKE, CUTS, WATCH, WATCH_REPORT, UNWATCH and UPDATE_ANSWER. -/

namespace Sys2Proof.Machine

/-! ## Who asks -/

/-- The station a request acts for: 0 for a hit (R175). -/
def CutJob.station : CutJob → Nat
  | .request _ r => r.station
  | .hit _ => 0

/-- The level a request acts at: the station's in the table in force as the request is taken, or the automation level
(R83). The level of a station that has left the table meanwhile is open (log entry 4). -/
def CutJob.level (j : CutJob) (s : State) : Nat :=
  match j with
  | .request _ r => match s.ports.table.find? (fun st => st.station = r.station) with
    | some st => st.level
    | none => (Config.levelOfAbsent r.station).val + 1
  | .hit _ => s.force.autoLevel

/-- The ISN a request is measured from: the head, or the hit ISN (R176). -/
def CutJob.measure (j : CutJob) (s : State) : Isn :=
  match j with
  | .request _ _ => s.cuts.head
  | .hit h => h.isn

/-- The request is answered: on its port, or by the hit's !WATCH (R177). -/
def finish (j : CutJob) (result : ResultWord) (fields : List Field) (s : State) : State :=
  match j with
  | .request p _ => answer p result fields s
  | .hit h => raise (watchNotice h result.text fields (resultSeverity result)) s

/-! ## The Hold Line's answer (R70, R79 to R81) -/

/-- OUT= of a cut once fixed, or TARGET= while it waits (R73, R77). -/
def Cut.endField (c : Cut) : List Field :=
  match c.last, c.target with
  | some o, _ => [("OUT", .isn o)]
  | none, some (.isn n) => [("TARGET", .isn n)]
  | none, some (.tc t) => [("TARGET", .tc t)]
  | none, none => []

/-- Every ISN named was late and the cut was closed (R70). -/
def Awaiting.tooLate (a : Awaiting) (ans : Answer) : Bool := !a.openEnded && ans.late = a.count

/-- OK or LATE. -/
def lateWord (k : Nat) : ResultWord := if k = 0 then .ok else .late

/-- TRIM= when anything was late. -/
def trimField (k : Nat) : List Field := if k = 0 then [] else [("TRIM", .num k)]

/-- A new cut whose update has been answered (R70): TOO-LATE leaves the list without a notice; LATE takes IN and the
trimmed count from the answer; then the state is tested and one !CUT raised, or the revoke-all carried out (R88). That
the trimmed count takes a number late above the 4,096 of R64 as it is, is the model's choice (log entry 65). A cut whose
entry was pending at a revoke-all and that is then TOO-LATE leaves without a notice, as R70 says, and no !CUT with
STATE=REVOKED follows the reply, as R88 has it: no cut was made (DEDUCED, log entry 22). -/
def settleEntry (a : Awaiting) (ans : Answer) (c : Cut) (s : State) : State :=
  if a.tooLate ans then finish a.job .tooLate [("TRIM", .num ans.late)] (removeCut c s)
  else
    let c : Cut :=
      { c with
        pend := none
        trimmed := ans.late
        first := if ans.late = 0 then c.first else ans.first.getD (a.first + BitVec.ofNat 32 a.count) }
    let s := finish a.job (lateWord ans.late)
      ([("CUT", .num c.id)] ++ trimField ans.late ++ [("IN", .isn c.first)] ++ c.endField) (putCut c s)
    if a.revokeAll then revokedCut c 0 s else enterState c [] .concealed s

/-- An amended cut whose update has been answered (R80). -/
def settleAmend (a : Awaiting) (ans : Answer) (c : Cut) (s : State) : State :=
  let c : Cut := { c with pend := none }
  let tooLate := a.tooLate ans && a.count ≠ 0
  let s := finish a.job (if tooLate then .tooLate else lateWord ans.late)
    (if tooLate then [("TRIM", .num ans.late)] else trimField ans.late) (putCut c s)
  let s := if tooLate then s else raise (cutNotice c c.st.text [("AMENDED", .word "YES")] .concealed) s
  if a.revokeAll then revokedCut c 0 s else settleCut c s

/-- A revoked cut whose update has been answered (R81). -/
def settleRevoke (a : Awaiting) (ans : Answer) (c : Cut) (s : State) : State :=
  if a.tooLate ans && a.count ≠ 0 then
    let s := finish a.job .tooLate [("CUT", .num c.id), ("TRIM", .num ans.late)] s
    if a.revokeAll then revokedCut c 0 s else doneCut c [] s
  else
    revokedCut c a.job.station
      (finish a.job (lateWord ans.late) ([("CUT", .num c.id)] ++ trimField ans.late) s)

/-- The !CUT of an accepted unlisted DUMP (R79): the span has no station, so it carries no BY= (R83). -/
def unlistedNotice (range : Span) : Notice :=
  ⟨"!CUT", .cuts, .concealed,
    [("ISN", .isn range.first), ("CUT", .num 0), ("STATE", .word "DONE"), ("OUT", .isn range.last)]⟩

/-- The length of a range of ISNs; 0 when its first lies after its last (R70). -/
def rangeCount (first last : Isn) : Nat := if isAfter first last then 0 else fwd first last + 1

/-- An unlisted DUMP whose update has been answered (R79). It is TOO-LATE when every ISN that the update named was late, the
ISNs beside an old span included, so that a TOO-LATE one has changed nothing in the line (R54, R70, R177); the span is then
as it was, at the boundary now reported. TRIM= counts the late ISNs of the range. A hit whose range is late whole, but whose
update has reached ISNs up to an old span behind it, is LATE (DEDUCED, log entry 19). -/
def settleUnlisted (a : Awaiting) (ans : Answer) (range : Span) (old : Option Span) (gap : Nat) (s : State) : State :=
  let n := rangeCount range.first range.last
  let k := min (ans.late - gap) n
  if a.tooLate ans then
    finish a.job .tooLate [("TRIM", .num k)]
      (s.onCuts fun e =>
        { e with span := if a.revokeAll then none else old.bind (Span.trimmed e.boundary) })
  else
    raise (unlistedNotice range)
      (finish a.job (lateWord k)
        ([("CUT", .num 0)] ++ trimField k ++ [("IN", .isn range.first), ("OUT", .isn range.last)]) s)

/-- The Cut Engine takes the Hold Line's answer and settles the request that awaited it (R70). -/
def settle (a : Awaiting) (ans : Answer) (s : State) : State :=
  let s := s.onCuts fun e => { e with awaiting := none, answer := none }
  match a.what with
  | .entry id => match s.cuts.cut id with
    | some c => settleEntry a ans c s
    | none => s
  | .amend id => match s.cuts.cut id with
    | some c => settleAmend a ans c s
    | none => s
  | .revoke id => match s.cuts.cut id with
    | some c => settleRevoke a ans c s
    | none => s
  | .unlisted range old gap => settleUnlisted a ans range old gap s

/-! ## Sending an update (R70) -/

/-- What an update over a range gives each record of the line in it. -/
def itemsOf (s : State) (first : Isn) (count : Nat) (assign : Isn → DispFields × Option Nat) : List Assign :=
  (s.line.records.filter fun r => fwd first r.isn < count).map fun r =>
    ⟨r.isn, (assign r.isn).1, (assign r.isn).2⟩

/-- Send one update over the ISNs from `first` through `last` and await its answer; a range that names no ISN is settled
at once with none late (R70). -/
def sendUpdate (a : Awaiting) (assign : Isn → DispFields × Option Nat) (s : State) : State :=
  if a.count = 0 then settle a ⟨0, none⟩ s
  else s.onCuts fun e =>
    { e with awaiting := some a, update := some ⟨a.first, a.count, itemsOf s a.first a.count assign⟩ }

/-- The smaller of an OUT and the head, in the order of the line (R70). -/
def upTo (out : Option Isn) (head : Isn) : Isn :=
  match out with
  | some o => if isAfter head o then o else head
  | none => head

/-- Re-derive the range of a listed cut, from its IN through the smaller of its OUT and the head (R70, R80, R81). -/
def sendFor (j : CutJob) (what : AwaitKind) (c : Cut) (s : State) : State :=
  sendUpdate ⟨j, what, c.first, rangeCount c.first (upTo c.last s.cuts.head), c.last.isNone, false⟩
    s.cuts.derive s

/-- A new cut enters the list with its pending answer, an id and an acceptance sequence, and its update is sent (R65,
R70). -/
def enterCut (j : CutJob) (action : CutAction) (captions : Bool) (first : Isn) (last : Option Isn)
    (target : Option Target) (s : State) : State :=
  let id := freeId (s.cuts.cuts.map (·.id)) 33 s.cuts.nextId
  let c : Cut :=
    { id := id, station := j.station, level := j.level s, action := action, captions := captions
      first := first, last := last, target := target
      st := if last.isSome then .armed else .opened
      trimmed := 0, seq := s.cuts.seq, pend := some .entry }
  sendFor j (.entry id) c
    (s.onCuts fun e => { e with cuts := e.cuts ++ [c], nextId := idAfter id, seq := e.seq + 1 })

/-! ## The requests -/

/-- MARK-IN with its action fields in hand (R69, R72). -/
def takeMarkIn (j : CutJob) (action : CutAction) (captions : Bool) (s : State) : State :=
  if s.pace.mode = .bypass then finish j .notEngaged [] s
  else if Config.maxCuts ≤ s.cuts.cuts.length then finish j .full [] s
  else enterCut j action captions (j.measure s - BitVec.ofNat 32 s.force.react) none none s

/-- The smallest span that takes in two: from the earlier of the firsts through the later of the lasts (R79, R176). -/
def Span.join (o range : Span) : Span :=
  ⟨if isAfter range.first o.first then o.first else range.first,
    if isAfter o.last range.last then o.last else range.last⟩

/-- The range of an unlisted DUMP with the ISNs that lie between it and an old span, on whichever side that stands
(R79, R176). -/
def Span.bridge (o range : Span) : Span :=
  ⟨if isAfter range.first (o.last + 1) then o.last + 1 else range.first,
    if isAfter o.first (range.last + 1) then o.first - 1 else range.last⟩

/-- An unlisted DUMP over the ISNs from `first` through `last` (R79): the span is set to take the range in, with the ISNs
between the old span and it, and one update drops them under cut 0. R79 gives each ISN of that update deciding cut 0;
R86 derives what the update of R79 names by the table of R84, which names a covering listed DROP cut where there is one.
The model takes R79's 0 for all of them, also under a listed DROP (DEDUCED, log entry 70). -/
def takeUnlisted (j : CutJob) (first last : Isn) (s : State) : State :=
  if rangeCount first last = 0 then finish j .tooLate [("TRIM", .num 0)] s
  else
    let range : Span := ⟨first, last⟩
    let old := s.cuts.span
    let span := (old.map fun o => o.join range).getD range
    let named := (old.map fun o => o.bridge range).getD range
    sendUpdate
      ⟨j, .unlisted range old (fwd named.first first), named.first, rangeCount named.first named.last, false, false⟩
      (fun _ => (⟨.drop, false⟩, some 0)) (s.onCuts fun e => { e with span := some span })

/-- DUMP (R78, R79, and R176 for a hit). -/
def takeDump (j : CutJob) (s : State) : State :=
  if s.pace.mode = .bypass then finish j .notEngaged [] s
  else
    let m := j.measure s
    let first : Isn := if s.force.dumpDepth = 0 then s.cuts.boundary else m - BitVec.ofNat 32 s.force.dumpDepth + 1
    let out : Isn := m + BitVec.ofNat 32 s.force.dumpTail
    if Config.maxCuts ≤ s.cuts.cuts.length then takeUnlisted j first m s
    else if isAfter out s.cuts.head then enterCut j .drop false first none (some (.isn out)) s
    else enterCut j .drop false first (some out) none s

/-- A requester may act on a cut: its own, or one of a level at most the requester's (R83). -/
def CutJob.mayActOn (j : CutJob) (c : Cut) (s : State) : Bool := j.station = c.station || c.level ≤ j.level s

/-- The open-ended cut a MARK-OUT names: by id, or the requester's own with the latest acceptance sequence (R73). -/
def markOutCut (j : CutJob) (id : Option Nat) (s : State) : Option Cut :=
  let openCuts := s.cuts.cuts.filter fun c => c.last.isNone && c.pend ≠ some .revoke
  match id with
  | some n => openCuts.find? fun c => c.id = n
  | none => (openCuts.filter fun c => c.station = j.station).getLast?

/-- MARK-OUT (R73): OUT is fixed at once when the target's record has been created, and waits as a target otherwise. -/
def takeMarkOut (j : CutJob) (id : Option Nat) (s : State) : State :=
  match markOutCut j id s with
  | none => finish j .notFound [] s
  | some c =>
    if !j.mayActOn c s then finish j .denied [] s
    else
      let out : Isn := j.measure s + BitVec.ofNat 32 s.force.postRoll
      if isAfter out s.cuts.head then
        let c : Cut := { c with target := some (.isn out) }
        finish j .ok ([("CUT", .num c.id)] ++ c.endField) (putCut c s)
      else
        let c := c.fixOut out
        enterState c [("REASON", .word "MARK-OUT")] .concealed
          (finish j .ok ([("CUT", .num c.id)] ++ c.endField) (putCut c s))

/-- The ends of a CUT as given: an ISN or a timecode, each end exactly once (R76). -/
def Request.cutEnd (r : Request) (rate : Nat) (isnKey tcKey : String) : Option Target :=
  match r.has isnKey, r.has tcKey with
  | true, false => (r.isn isnKey).map .isn
  | false, true => (r.timecode rate tcKey).map .tc
  | _, _ => none

/-- The IN of a CUT, or none for NOT-FOUND (R76). -/
def resolveIn (t : Target) (s : State) : Option Isn :=
  match t with
  | .isn n => if isAfter n s.cuts.head then none else some n
  | .tc t => ((s.line.withTimecode t).getLast?).map (·.isn)

/-- The OUT of a CUT against its IN: fixed, or a target that waits; none for BAD (R76). -/
def resolveOut (first : Isn) (t : Target) (s : State) : Option (Option Isn × Option Target) :=
  let inRange (n : Isn) : Bool := !isAfter first n && fwd first n ≤ 4095
  match t with
  | .isn n => if !inRange n then none else if isAfter n s.cuts.head then some (none, some t) else some (some n, none)
  | .tc tc => match (s.line.withTimecode tc).find? (fun r => atOrAfter r.isn first) with
    | some r => if inRange r.isn then some (some r.isn, none) else none
    | none => some (none, some t)

/-- CUT (R69, R76, R77). -/
def takeCut (j : CutJob) (r : Request) (s : State) : State :=
  let rate := s.force.rate
  match r.cutEnd rate "IN" "TCIN", r.cutEnd rate "OUT" "TCOUT", r.actionFields.bind ActionFields.forNew with
  | some tin, some tout, some (action, captions) =>
    if !r.onlyKeys (["IN", "TCIN", "OUT", "TCOUT"] ++ actionKeys) then finish j .bad [] s
    else if s.pace.mode = .bypass then finish j .notEngaged [] s
    else if Config.maxCuts ≤ s.cuts.cuts.length then finish j .full [] s
    else match resolveIn tin s with
      | none => finish j .notFound [] s
      | some first => match resolveOut first tout s with
        | none => finish j .bad [] s
        | some (last, target) => enterCut j action captions first last target s
  | _, _, _ => finish j .bad [] s

/-- The id a request names; 0 is in form and never listed (R83). -/
def Request.cutId (r : Request) : Option Nat := r.num "CUT" 0 255

/-- A listed cut that is not being revoked (R73, R82, R89). -/
def CutEngine.findable (e : CutEngine) (id : Nat) : Option Cut := (e.cut id).filter fun c => c.pend ≠ some .revoke

/-- AMEND (R80): the form and the listing first; then the cut as it would stand, the authority, and the update. That the
listing (R69, check 3) comes before the consistency of the action fields, which R80 tests on the cut as it would stand,
is the model's reading (log entry 54). -/
def takeAmend (j : CutJob) (r : Request) (s : State) : State :=
  match r.cutId, r.actionFields with
  | some id, some fields =>
    if !r.onlyKeys ("CUT" :: actionKeys) || !actionKeys.any r.has then finish j .bad [] s
    else match s.cuts.findable id with
      | none => finish j .notFound [] s
      | some c => match fields.forAmend c.action c.captions with
        | none => finish j .bad [] s
        | some (action, captions) =>
          if !j.mayActOn c s then finish j .denied [] s
          else
            let c : Cut := { c with action := action, captions := captions, pend := some .amend }
            sendFor j (.amend id) c (putCut c s)
  | _, _ => finish j .bad [] s

/-- REVOKE (R81). -/
def takeRevoke (j : CutJob) (r : Request) (s : State) : State :=
  match (if r.onlyKeys ["CUT"] then r.cutId else none) with
  | none => finish j .bad [] s
  | some id => match s.cuts.findable id with
    | none => finish j .notFound [] s
    | some c =>
      if !j.mayActOn c s then finish j .denied [] s
      else
        let c : Cut := { c with pend := some .revoke }
        sendFor j (.revoke id) c (putCut c s)

/-- The fields of one cut (R89). -/
def Cut.reportFields (c : Cut) : List Field :=
  [("CUT", .num c.id), ("BY", .num c.station), ("LEVEL", .num c.level), ("ACTION", .word c.action.text),
    ("STATE", .word c.st.text), ("IN", .isn c.first)] ++ c.endField ++ c.action.detail
    ++ [("CAPTIONS", .word (keepRemove c.captions)), ("TRIM", .num c.trimmed), ("SEQ", .isn c.seq)]

/-- The fields of the whole list (R89). -/
def CutEngine.listFields (e : CutEngine) : List Field :=
  [("COUNT", .num e.cuts.length), ("IDS", .word (commaList (e.cuts.map (·.id))))]
    ++ (match e.span with
      | none => []
      | some sp => [("SPANIN", .isn sp.first), ("SPANOUT", .isn sp.last)])

/-- CUTS (R89). -/
def takeCuts (j : CutJob) (r : Request) (s : State) : State :=
  if !r.onlyKeys ["CUT"] then finish j .bad [] s
  else if !r.has "CUT" then finish j .ok s.cuts.listFields s
  else match r.cutId with
    | none => finish j .bad [] s
    | some id => match s.cuts.findable id with
      | none => finish j .notFound [] s
      | some c => finish j .ok c.reportFields s

/-- MARK-IN of a station: the action fields and nothing else (R72). -/
def takeMarkInRequest (j : CutJob) (r : Request) (s : State) : State :=
  match (if r.onlyKeys actionKeys then r.actionFields.bind ActionFields.forNew else none) with
  | none => finish j .bad [] s
  | some (action, captions) => takeMarkIn j action captions s

/-- MARK-OUT of a station: CUT= or nothing (R73). -/
def takeMarkOutRequest (j : CutJob) (r : Request) (s : State) : State :=
  if !r.onlyKeys ["CUT"] then finish j .bad [] s
  else if !r.has "CUT" then takeMarkOut j none s
  else match r.cutId with
    | none => finish j .bad [] s
    | some id => takeMarkOut j (some id) s

/-- The Cut Engine takes one request (R69). -/
def takeJob (j : CutJob) (s : State) : State :=
  match j with
  | .hit h => match h.act with
    | .markIn action captions => takeMarkIn j action captions s
    | .markOut => takeMarkOut j none s
    | .dump => takeDump j s
    | .notify => s
  | .request p r => match r.word with
    | .dump => if r.keys.isEmpty then takeDump j s else finish j .bad [] s
    | .markIn => takeMarkInRequest j r s
    | .markOut => takeMarkOutRequest j r s
    | .cut => takeCut j r s
    | .amend => takeAmend j r s
    | .revoke => takeRevoke j r s
    | .cuts => takeCuts j r s
    | .watch => if r.onlyKeys ["W"] then takeWatchReport p r s else takeWatch p r s
    | .unwatch => takeUnwatch p r s
    | _ => s

/-- A request reaches the Cut Engine: it is taken at once when nothing waits and no answer is pending, and joins the
queue otherwise (R69, R175). -/
def cutArrives (j : CutJob) (s : State) : State :=
  if s.cuts.awaiting.isNone && s.cuts.queue.isEmpty then takeJob j s
  else s.onCuts fun e => { e with queue := e.queue ++ [j] }

/-- The Cut Engine takes its queued requests in turn, until one awaits an answer (R69). -/
def takeQueued : Nat → State → State
  | 0, s => s
  | k + 1, s =>
    match s.cuts.awaiting, s.cuts.queue with
    | none, j :: js => takeQueued k (takeJob j (s.onCuts fun e => { e with queue := js }))
    | _, _ => s

/-- UPDATE_ANSWER (R70): the answer is taken, and then the next queued request. -/
def execUpdateAnswer (s : State) : Host.Outcome State Fault Refusal :=
  .next <|
    match s.runs, s.cuts.awaiting, s.cuts.answer with
    | true, some a, some ans => takeQueued s.cuts.queue.length (settle a ans s)
    | _, _, _ => s

/-- A request of one form reaches the Cut Engine from a port. -/
def cutRequest (p : Port) (form : Request → Bool) (s : State) : State :=
  takeRouted p form (fun r => cutArrives (.request p r)) s

/-- DUMP (R78). -/
def execDump (p : Port) (s : State) : Host.Outcome State Fault Refusal :=
  .next (cutRequest p (fun r => r.word = .dump) s)
/-- MARK_IN (R72). -/
def execMarkIn (p : Port) (s : State) : Host.Outcome State Fault Refusal :=
  .next (cutRequest p (fun r => r.word = .markIn) s)
/-- MARK_OUT (R73). -/
def execMarkOut (p : Port) (s : State) : Host.Outcome State Fault Refusal :=
  .next (cutRequest p (fun r => r.word = .markOut) s)
/-- CUT (R76). -/
def execCut (p : Port) (s : State) : Host.Outcome State Fault Refusal :=
  .next (cutRequest p (fun r => r.word = .cut) s)
/-- AMEND (R80). -/
def execAmend (p : Port) (s : State) : Host.Outcome State Fault Refusal :=
  .next (cutRequest p (fun r => r.word = .amend) s)
/-- REVOKE (R81). -/
def execRevoke (p : Port) (s : State) : Host.Outcome State Fault Refusal :=
  .next (cutRequest p (fun r => r.word = .revoke) s)
/-- CUTS (R89). -/
def execCuts (p : Port) (s : State) : Host.Outcome State Fault Refusal :=
  .next (cutRequest p (fun r => r.word = .cuts) s)
/-- WATCH that defines (R171). -/
def execWatch (p : Port) (s : State) : Host.Outcome State Fault Refusal :=
  .next (cutRequest p (fun r => r.word = .watch && !r.onlyKeys ["W"]) s)
/-- WATCH_REPORT (R172). -/
def execWatchReport (p : Port) (s : State) : Host.Outcome State Fault Refusal :=
  .next (cutRequest p (fun r => r.word = .watch && r.onlyKeys ["W"]) s)
/-- UNWATCH (R172). -/
def execUnwatch (p : Port) (s : State) : Host.Outcome State Fault Refusal :=
  .next (cutRequest p (fun r => r.word = .unwatch) s)

/-! ## Watch tests and hits (R174, R175) -/

/-- A hit is dealt with at the test: NOTIFY raises its notice; the others form a hit request (R175). -/
def dealHit (h : Hit) (s : State) : State :=
  match h.act with
  | .notify => raise (watchNotice h "HIT" [] .concealed) s
  | .markIn _ _ | .markOut | .dump => cutArrives (.hit h) s

/-- One ARMED watch of a point is tested against a record (R173, R174). -/
def testWatch (point : WatchPoint) (isn : Isn) (tc : Option Timecode) (s : State) (n : Nat) : State :=
  match s.cuts.watch n with
  | none => s
  | some w =>
    if w.spent || w.point ≠ point then s
    else
      let (hit, w') := w.test isn tc
      let s := putWatch n (some w') s
      if hit then dealHit ⟨n, isn, point, w.act, w.cue, w'.spent⟩ s else s

/-- The watches of a point are tested in watch order (R174). -/
def testWatches (point : WatchPoint) (isn : Isn) (tc : Option Timecode) (s : State) : State :=
  [1, 2, 3, 4].foldl (testWatch point isn tc) s

/-- A record begins emission: the last begun ISN is set and the PLAYOUT watches are tested (R133, R174). -/
def recordBegins (isn : Isn) (tc : Option Timecode) (s : State) : State :=
  testWatches .playout isn tc (s.onCuts fun e => { e with lastBegun := some isn })

end Sys2Proof.Machine
end

