-- ==== Sys2Proof/Machine/Windows.lean ====
section
/-! DEFINITION. The cover window table (section 8.4): changes of a window, the start and the end of a load, and the
commands WINDOW, WINDOW_REPORT, LOAD and CLEAR. -/

namespace Sys2Proof.Machine

/-! ## Entries -/

/-- Set the entry of a window, 1 to 8. -/
def putWindow (n : Nat) (w : WindowEntry) (s : State) : State :=
  s.onStore fun st => { st with windows := listModify (fun _ => w) (n - 1) st.windows }

/-- A window's state as sent. -/
def WindowState.text : WindowState → String
  | .empty => "EMPTY"
  | .loading => "LOADING"
  | .ready => "READY"
  | .faulty => "FAULTY"

/-- The fields of an entry as it stands (R164). -/
def WindowEntry.reportFields (n : Nat) (w : WindowEntry) : List Field :=
  match w.defn with
  | none => [("W", .num n), ("DEFINED", .word "NO")]
  | some d =>
    [("W", .num n), ("BASE", .num d.base), ("LENGTH", .num d.length), ("LOOP", .word (yesNo d.loop)),
      ("CLIPS", .num w.clips), ("STATE", .word w.st.text)]

/-- Two runs of blocks share a block (R162). -/
def WindowDef.overlaps (d e : WindowDef) : Bool := d.base < e.base + e.length && e.base < d.base + d.length

/-- A definition overlaps another defined window (R164). -/
def Store.overlapsOther (st : Store) (n : Nat) (d : WindowDef) : Bool :=
  (st.windows.zipIdx 1).any fun x => x.2 ≠ n && x.1.defn.any d.overlaps

/-! ## Changes (R168) -/

/-- The job is a cover read for a window. -/
def StoreJob.reads (n : Nat) : StoreJob → Bool
  | .coverRead _ w _ _ => w = n
  | .fetch _ _ _ _ _ _ _ _ | .ingestWrite _ _ _ | .loadWrite _ _ _ _ => false

/-- The record a cover read is for. -/
def StoreJob.coverFor : StoreJob → Option Isn
  | .coverRead isn _ _ _ => some isn
  | .fetch _ _ _ _ _ _ _ _ | .ingestWrite _ _ _ | .loadWrite _ _ _ _ => none

/-- The access in flight gets its cleared mark when it reads a window. -/
def Access.clear (n : Nat) (a : Access) : Access :=
  if a.req.job.reads n then { a with req := { a.req with cleared := true } } else a

/-- A window is changed: its queued cover reads leave their queue and complete CLEARED at once, and one in flight gets its
cleared mark (R168). -/
def clearReads (n : Nat) (s : State) : State :=
  let gone := (s.store.cover.filter fun r => r.job.reads n).filterMap fun r => r.job.coverFor
  gone.foldl (fun s isn => coverCompleted isn .cleared s)
    (s.onStore fun st =>
      { st with
        cover := st.cover.filter fun r => !r.job.reads n
        flight := st.flight.map (Access.clear n) })

/-! ## WINDOW (R164) -/

/-- LOOP=, default NO. -/
def Request.loop (r : Request) : Option Bool :=
  match r.wordOr "LOOP" "NO" with
  | "YES" => some true
  | "NO" => some false
  | _ => none

/-- The definition a WINDOW carries, or none for BAD (R164, check 1). -/
def Request.windowDef (r : Request) : Option (Nat × WindowDef) := do
  let n ← r.num "W" 1 8
  let base ← r.num "BASE" 0 255
  let length ← r.num "LENGTH" 1 256
  let loop ← r.loop
  if !r.onlyKeys ["W", "BASE", "LENGTH", "LOOP"] || Config.coverBlocks < base + length then none
  else some (n, ⟨base, length, loop⟩)

/-- The same blocks. -/
def WindowDef.sameBlocks (d e : WindowDef) : Bool := d.base = e.base && d.length = e.length

/-- A definition that passes is applied (R164): over the same blocks only the loop field is set; otherwise the entry
becomes EMPTY, and its reads are settled, also where it was EMPTY before (the model's choice, log entry 57). -/
def defineWindow (n : Nat) (d : WindowDef) (s : State) : State :=
  let w := s.store.window n
  match w.defn with
  | none => putWindow n (.emptyOf d) s
  | some e =>
    if d.sameBlocks e then putWindow n { w with defn := some d } s
    else clearReads n (putWindow n (.emptyOf d) s)

/-- The checks of a definition against the table (R164, checks 2 and 3). -/
def windowRefusal (n : Nat) (d : WindowDef) (s : State) : Option ResultWord :=
  if (s.store.window n).st = .loading then some .busy
  else if s.store.overlapsOther n d then some .overlap
  else none

/-- WINDOW that defines (R164). -/
def answerWindow (p : Port) (r : Request) (s : State) : State :=
  match r.windowDef with
  | none => answer p .bad [] s
  | some (n, d) => match windowRefusal n d s with
    | some word => answer p word [] s
    | none =>
      let s := defineWindow n d s
      answer p .ok ((s.store.window n).reportFields n) s

/-- WINDOW with W= alone (R164). -/
def answerWindowReport (p : Port) (r : Request) (s : State) : State :=
  match r.num "W" 1 8 with
  | none => answer p .bad [] s
  | some n => answer p .ok ((s.store.window n).reportFields n) s

/-- WINDOW (R164). -/
def execWindow (p : Port) (s : State) : Host.Outcome State Fault Refusal :=
  .next (takeRouted p (fun r => r.word = .window && !r.onlyKeys ["W"]) (answerWindow p) s)

/-- WINDOW_REPORT (R164). -/
def execWindowReport (p : Port) (s : State) : Host.Outcome State Fault Refusal :=
  .next (takeRouted p (fun r => r.word = .window && r.onlyKeys ["W"]) (answerWindowReport p) s)

/-! ## LOAD (R37, R165, R166) -/

/-- The lane as a LOAD opens it (R37). -/
def Lane.opened (window stream count base : Nat) : Lane :=
  { Lane.init with st := .waiting, window := window, stream := stream, count := count, base := base }

/-- The keys of a LOAD: window, stream and count (R165, check 1). -/
def Request.loadKeys (r : Request) : Option (Nat × Nat × Nat) := do
  let n ← r.num "W" 1 8
  let stream ← r.num "STREAM" 1 15
  let count ← r.num "COUNT" 0 9999999999
  if r.onlyKeys ["W", "STREAM", "COUNT"] then some (n, stream, count) else none

/-- LOAD (R165). -/
def answerLoad (p : Port) (r : Request) (s : State) : State :=
  match r.loadKeys with
  | none => answer p .bad [] s
  | some (n, stream, count) =>
    let w := s.store.window n
    match w.defn with
    | none => answer p .notFound [] s
    | some d =>
      if stream = s.force.stream then answer p .bad [] s
      else if s.lane.st ≠ .idle then answer p .busy [] s
      else if count < 1 || d.length < count then answer p .bad [] s
      else
        answer p .started [("W", .num n), ("STREAM", .num stream), ("COUNT", .num count)]
          ((clearReads n (putWindow n { w with st := .loading, clips := 0 } s)).onLane
            fun _ => .opened n stream count d.base)

/-- LOAD (R165). -/
def execLoad (p : Port) (s : State) : Host.Outcome State Fault Refusal :=
  .next (takeRouted p (fun r => r.word = .load) (answerLoad p) s)

/-- The lane reports the end of a load (R40, R166). -/
def loadEnded (n clips : Nat) (faulty : Bool) (s : State) : State :=
  let w := s.store.window n
  if faulty then
    raise ⟨"!WINDOW", .faults, .attention, [("W", .num n), ("STATE", .word "FAULTY")]⟩
      (putWindow n { w with st := .faulty, clips := 0 } s)
  else
    raise ⟨"!WINDOW", .setup, .concealed, [("W", .num n), ("STATE", .word "READY"), ("CLIPS", .num clips)]⟩
      (putWindow n { w with st := .ready, clips := clips } s)

/-- The lane is FINISHING and none of its slots is still being written (R40). -/
def Lane.finished (l : Lane) : Bool := l.st = .finishing && l.slots.all fun x => x.st ≠ .writing

/-- The lane reports the end of its load and becomes IDLE, once nothing of it is in flight (R40). -/
def laneEnds (s : State) : State :=
  if s.lane.finished then
    loadEnded s.lane.window s.lane.count s.lane.faultMark (s.onLane fun _ => .init)
  else s

/-! ## CLEAR (R167) -/

/-- The window a CLEAR names and whether it becomes undefined, or none for BAD. -/
def Request.clearKeys (r : Request) : Option (Nat × Bool) := do
  let n ← r.num "W" 1 8
  if !r.onlyKeys ["W", "UNDEFINE"] then none
  else match r.key "UNDEFINE" with
    | none => some (n, false)
    | some "YES" => some (n, true)
    | some _ => none

/-- The OK of a CLEAR (R167). -/
def clearedFields (n : Nat) (undefine : Bool) : List Field :=
  [("W", .num n), if undefine then ("DEFINED", .word "NO") else ("STATE", .word "EMPTY")]

/-- CLEAR (R167). A window that is EMPTY already is not changed, so its reads stay as they are; with UNDEFINE=YES it
becomes undefined all the same, which is the model's choice (log entry 57). -/
def answerClear (p : Port) (r : Request) (s : State) : State :=
  match r.clearKeys with
  | none => answer p .bad [] s
  | some (n, undefine) =>
    let entry (d : WindowDef) : WindowEntry := if undefine then .undefinedEntry else .emptyOf d
    match (s.store.window n).defn, (s.store.window n).st with
    | none, _ => answer p .notFound [] s
    | some _, .loading => answer p .busy [] s
    | some d, .empty =>
      answer p .ok (clearedFields n undefine) (if undefine then putWindow n (entry d) s else s)
    | some d, .ready | some d, .faulty =>
      answer p .ok (clearedFields n undefine) (clearReads n (putWindow n (entry d) s))

/-- CLEAR (R167). -/
def execClear (p : Port) (s : State) : Host.Outcome State Fault Refusal :=
  .next (takeRouted p (fun r => r.word = .clear) (answerClear p) s)

end Sys2Proof.Machine
end

