-- ==== Sys2Proof/Machine/Ingest.lean ====
section
/-! DEFINITION. The Ingest Unit (chapter 2): sorting and placing packets, the essence tests, the closing of a slice and
the creation of its record (R43, R47), the cover-load lane, and the commands MEDIA_IN_PACKET and CLOSING_MARK. -/

namespace Sys2Proof.Machine

/-! ## Essence within a slot (R26 to R29) -/

/-- What a slot holds of a kind. -/
def StagingSlot.kindBuf (x : StagingSlot) : Kind → KindBuf
  | .video => x.video
  | .audio => x.audio
  | .caption => x.caption

/-- Replace what a slot holds of a kind. -/
def StagingSlot.putKind (x : StagingSlot) (k : Kind) (b : KindBuf) : StagingSlot :=
  match k with
  | .video => { x with video := b }
  | .audio => { x with audio := b }
  | .caption => { x with caption := b }

/-- What becomes of a packet, and how it is counted. -/
inductive PacketFate
  | discarded | malformed | late | early | duplicate | accepted
  deriving DecidableEq, Repr

/-- A packet is counted once (R18, R20, R27). -/
def countFate (fate : PacketFate) (s : State) : State :=
  match fate with
  | .discarded => s
  | .malformed => countMalformed s
  | .late => countLate s
  | .early => countEarly s
  | .duplicate => countDuplicate s
  | .accepted => countAccepted s

/-- A kind total that rejects the kind (R28). -/
def Kind.rejects (k : Kind) (length total : Nat) : Bool :=
  match k with
  | .video => Config.maxVideo < total
  | .audio => total ≠ length * 64
  | .caption => false

/-- The bytes of a payload that are stored: all of them, but of captions only those below 2,048 (R29). -/
def Packet.stored (p : Packet) : Bytes :=
  if p.kind = .caption then p.payload.take (Config.maxCaptions - p.offset) else p.payload

/-- Two byte ranges have a byte in common. -/
def Range.overlaps (r : Range) (off len : Nat) : Bool := r.off < off + len && off < r.off + r.len

/-- The kind starts with a packet's kind total (R27, R28, R29). -/
def KindBuf.start (b : KindBuf) (length : Nat) (p : Packet) : KindBuf :=
  if p.kind.rejects length p.total then { b with rejected := true }
  else { b with total := some p.total, truncated := p.kind = .caption && Config.maxCaptions < p.total }

/-- The tests of R27, in order, on what a slot holds of the packet's kind. -/
def KindBuf.test (b : KindBuf) (length : Nat) (p : Packet) : PacketFate × KindBuf :=
  if b.rejected || p.total < p.offset + p.payload.length then (.malformed, b)
  else
    let b := if b.total.isNone then b.start length p else b
    if b.rejected || b.total ≠ some p.total then (.malformed, b)
    else if b.ranges.any fun r => r.off = p.offset then (.duplicate, b)
    else if b.ranges.any fun r => r.overlaps p.offset p.payload.length then (.malformed, b)
    else (.accepted, { b with ranges := b.ranges ++ [⟨p.offset, p.payload.length, p.stored⟩] })

/-- A packet's timecode, absent when out of range (R6). -/
def Packet.timecode (p : Packet) (rate : Nat) : Option Timecode := if p.tc.inRange rate then some p.tc else none

/-- A slot takes a packet: the tests of its kind, and the timecode of the first accepted packet that carries one (R6,
R27). -/
def StagingSlot.take (x : StagingSlot) (rate length : Nat) (p : Packet) : PacketFate × StagingSlot :=
  let (fate, b) := (x.kindBuf p.kind).test length p
  let x := x.putKind p.kind b
  (fate, if fate = .accepted then { x with tc := x.tc.or (p.timecode rate) } else x)

/-! ## Placing (R19, R20, R24) -/

/-- A FREE slot: of several the lowest-numbered, which is the model's choice (R24, log entry 53). -/
def freeSlot (slots : List StagingSlot) : Option Nat := slots.findIdx? fun x => x.st = .free

/-- A slot gathers for a position. -/
def StagingSlot.gathering : StagingSlot := { StagingSlot.empty with st := .gathering }

/-- The positions and slots of a window. -/
structure Staging where
  positions : List Position
  slots : List StagingSlot

/-- The packet goes to the slot bound to its position. -/
def Staging.toSlot (g : Staging) (rate length j : Nat) (p : Packet) : PacketFate × Staging :=
  let (fate, x) := ((g.slots[j]?).getD .empty).take rate length p
  (fate, { g with slots := listModify (fun _ => x) j g.slots })

/-- A packet is placed at position `i`: it binds a FREE slot when the position has none, or the position is refused
(R24). -/
def Staging.place (g : Staging) (rate length i : Nat) (p : Packet) : PacketFate × Staging :=
  match g.positions[i]? with
  | none => (.discarded, g)
  | some pos => match pos.slot with
    | some j => g.toSlot rate length j p
    | none =>
      if pos.refused then (.discarded, g)
      else match freeSlot g.slots with
        | none => (.discarded, { g with positions := listModify (fun x => { x with refused := true }) i g.positions })
        | some j =>
          Staging.toSlot
            { positions := listModify (fun x => { x with slot := some j }) i g.positions
              slots := listModify (fun _ => .gathering) j g.slots } rate length j p

/-- An open position without a slot. -/
def Position.open_ (ts : U32) : Position := ⟨ts, false, none, false⟩

/-- Where a packet belongs by its distance from the expected timestamp (R20). -/
inductive Placement
  | older | newer | misaligned | early | late
  deriving DecidableEq, Repr

/-- The table of R20. -/
def placementOf (expected ts : U32) (length : Nat) : Placement :=
  let d := fwd expected ts
  if d = 0 then .older
  else if d = length then .newer
  else if d < 2 * length then .misaligned
  else if d ≤ 2147483647 then .early
  else .late

/-! ## The program path (R18 to R22) -/

/-- The open position of a timestamp. -/
def openAt (positions : List Position) (ts : U32) : Option Nat :=
  positions.findIdx? fun x => x.ts = ts && !x.draining

/-- A program packet is placed at its position (R20, R21). -/
def placeProgram (p : Packet) (s : State) : State :=
  match openAt s.ingest.window p.ts with
  | none => s
  | some i =>
    let (fate, g) := Staging.place ⟨s.ingest.window, s.ingest.slots⟩ s.force.rate s.sliceLength i p
    countFate fate (s.onIngest fun x => { x with early := 0, window := g.positions, slots := g.slots })

/-- The window moves to where the source now is (R22). -/
def resync (old ts : U32) (s : State) : State :=
  raise ⟨"!RESYNC", .ingest, .degraded, [("OLD", .isn old), ("NEW", .isn ts)]⟩
    (s.onIngest fun x =>
      { x with
        window := x.window.map (fun y => { y with draining := true })
          ++ [.open_ ts, .open_ (ts + BitVec.ofNat 32 s.sliceLength)]
        expected := some ts
        early := 0 })

/-- An early program packet counts towards a resync, unless a position is still draining (R21). -/
def earlyProgram (old : U32) (p : Packet) (s : State) : State :=
  let s := countEarly s
  if s.ingest.window.any (·.draining) then s.onIngest fun x => { x with early := 0 }
  else if 4 ≤ s.ingest.early + 1 then resync old p.ts s
  else s.onIngest fun x => { x with early := x.early + 1 }

/-- A program packet (R19, R20, R21). -/
def takeProgram (p : Packet) (s : State) : State :=
  match s.ingest.expected with
  | none =>
    placeProgram p (s.onIngest fun x =>
      { x with
        expected := some p.ts
        window := [.open_ p.ts, .open_ (p.ts + BitVec.ofNat 32 s.sliceLength)] })
  | some e =>
    match placementOf e p.ts s.sliceLength with
    | .older | .newer => placeProgram p s
    | .misaligned => countMalformed (s.onIngest fun x => { x with early := 0 })
    | .late => countLate (s.onIngest fun x => { x with early := 0 })
    | .early => earlyProgram e p s

/-! ## The cover-load lane (R37, R38) -/

/-- The first packet of the lane's stream fixes the lead-in (R37). -/
def Lane.begin_ (l : Lane) (ts : U32) (length : Nat) : Lane :=
  { l with
    st := .running
    leadIn := some ts
    leadInHeld := true
    expected := ts + BitVec.ofNat 32 length
    positions := [.open_ (ts + BitVec.ofNat 32 length)] }

/-- A lane packet is placed at its position (R38). A position that is not in the lane's window yet takes nothing, and the
packet counts as early (log entry 20). -/
def placeLane (p : Packet) (s : State) : State :=
  match openAt s.lane.positions p.ts with
  | none => countEarly s
  | some i =>
    let (fate, g) := Staging.place ⟨s.lane.positions, s.lane.slots⟩ s.force.rate s.sliceLength i p
    countFate fate (s.onLane fun x => { x with positions := g.positions, slots := g.slots })

/-- A packet of the lane's stream while the lane is WAITING or RUNNING (R37, R38). -/
def takeLanePacket (p : Packet) (s : State) : State :=
  if s.lane.st = .waiting then s.onLane fun l => l.begin_ p.ts s.sliceLength
  else if s.lane.leadIn = some p.ts then s
  else match placementOf s.lane.expected p.ts s.sliceLength with
    | .older | .newer => placeLane p s
    | .misaligned => countMalformed s
    | .late => countLate s
    | .early => countEarly s

/-- The lane takes packets of its stream (R18). -/
def Lane.takes (l : Lane) (stream : Nat) : Bool := (l.st = .waiting || l.st = .running) && l.stream = stream

/-- A packet that has passed the header checks is sorted by its stream id (R18). -/
def sortPacket (p : Packet) (s : State) : State :=
  if p.stream = s.force.stream then takeProgram p s
  else if s.lane.takes p.stream then takeLanePacket p s
  else countMalformed s

/-- MEDIA_IN_PACKET (R14, R18). -/
def execMediaInPacket (packet : Bytes) (s : State) : Host.Outcome State Fault Refusal :=
  .next <|
    if !s.runs then s
    else match checkHeader packet with
      | .malformed => countMalformed s
      | .checksum => countChecksum s
      | .passed p => sortPacket p s

/-! ## Closing a slice (R30 to R33) -/

/-- The ranges received of a kind, from `pos` on without a hole, in at most as many steps as there are ranges. -/
def runFrom (ranges : List Range) : Nat → Nat → List Range
  | 0, _ => []
  | k + 1, pos => match ranges.find? fun r => r.off = pos with
    | none => []
    | some r => r :: runFrom ranges k (pos + r.len)

/-- The unbroken run of ranges from offset 0. -/
def KindBuf.run (b : KindBuf) : List Range := runFrom b.ranges b.ranges.length 0

/-- How much must have been received for a kind to be whole (R29, R31). -/
def Kind.need (k : Kind) (total : Nat) : Nat := if k = .caption then min total Config.maxCaptions else total

/-- The kind has started (R26). -/
def KindBuf.started (b : KindBuf) : Bool := b.total.isSome || b.rejected

/-- The started kind is whole (R31). -/
def KindBuf.whole (b : KindBuf) (k : Kind) : Bool :=
  !b.rejected && b.total.any fun t => k.need t ≤ (b.run.map (·.len)).sum

/-- The bytes of a whole kind. -/
def KindBuf.assembled (b : KindBuf) : Bytes := b.run.flatMap (·.bytes)

/-- Insert a range by its offset. -/
def insertRange (r : Range) : List Range → List Range
  | [] => [r]
  | x :: xs => if r.off ≤ x.off then r :: x :: xs else x :: insertRange r xs

/-- The bytes of ranges in offset order, none where nothing was received, from `pos` up to `total`. -/
def fillHoles (total : Nat) : Nat → List Range → List (Option Byte)
  | pos, [] => List.replicate (total - pos) none
  | pos, r :: rs => List.replicate (r.off - pos) none ++ r.bytes.map some ++ fillHoles total (r.off + r.len) rs

/-- A sample container not wholly received becomes four zero bytes (R31). -/
def zeroHoles : List (Option Byte) → Bytes
  | some a :: some b :: some c :: some d :: rest => a :: b :: c :: d :: zeroHoles rest
  | _ :: _ :: _ :: _ :: rest => 0 :: 0 :: 0 :: 0 :: zeroHoles rest
  | _ => []

/-- The audio kept of a started, unrejected audio: whole as it is, or with its holes set to 0 (R31). -/
def KindBuf.keptAudio (b : KindBuf) : Option Bytes :=
  if b.rejected then none
  else b.total.map fun t =>
    if b.whole .audio then b.assembled else zeroHoles (fillHoles t 0 (b.ranges.foldr insertRange []))

/-- Video or captions kept: only when whole (R31). -/
def KindBuf.keptRun (b : KindBuf) (k : Kind) : Bytes := if b.whole k then b.assembled else []

/-- The kinds of a slot for which something holds, in order. -/
def StagingSlot.kindsWhere (x : StagingSlot) (f : Kind → KindBuf → Bool) : List Kind :=
  [Kind.video, .audio, .caption].filter fun k => f k (x.kindBuf k)

/-- The kinds that MISSING= lists: the started ones that are not whole. A rejected kind is listed under REJECTED= alone,
which is the model's choice (R35, log entry 64). -/
def StagingSlot.missing (x : StagingSlot) : List Kind :=
  x.kindsWhere fun k b => b.started && !b.rejected && !b.whole k

/-- The rejected kinds. -/
def StagingSlot.rejected (x : StagingSlot) : List Kind := x.kindsWhere fun _ b => b.rejected

/-- The essence kept of a slot (R31). -/
def StagingSlot.keeps (x : StagingSlot) : Essence := ⟨x.video.keptRun .video, x.audio.keptAudio, x.caption.keptRun .caption⟩

/-- The condition of a closed position with its loss reason (R31). -/
def conditionOf (pos : Position) (slot : Option StagingSlot) : Condition × Option LossReason :=
  if pos.refused then (.loss, some .stagingFull)
  else match slot with
    | none => (.loss, some .missing)
    | some x =>
      if (x.kindsWhere fun _ b => b.started).isEmpty then (.loss, some .missing)
      else if x.missing.isEmpty && x.rejected.isEmpty then (.intact, none)
      else (.partialSlice, none)

/-- The slot of a position. -/
def Position.slotIn (pos : Position) (slots : List StagingSlot) : Option StagingSlot := pos.slot.bind fun j => slots[j]?

/-- A closed slice, before its page is claimed. `slot` is the index of the slot that held it. -/
structure Closed where
  ts : Option U32
  slot : Option Nat
  held : StagingSlot
  cond : Condition
  loss : Option LossReason

/-- The slice of a window position as it closes (R31). -/
def closePosition (pos : Position) (slots : List StagingSlot) : Closed :=
  let x := pos.slotIn slots
  ⟨some pos.ts, pos.slot, x.getD .empty, (conditionOf pos x).1, (conditionOf pos x).2⟩

/-- The slice of an empty window: LOSS with reason MISSING (R30). -/
def Closed.nothing : Closed := ⟨none, none, .empty, .loss, some .missing⟩

/-- The slice becomes LOSS for want of a page (R33). -/
def Closed.noPage (c : Closed) : Closed := { c with cond := .loss, loss := some .noPage }

/-- A slot is FREE again. -/
def freeStaging (slot : Option Nat) (slots : List StagingSlot) : List StagingSlot :=
  match slot with
  | none => slots
  | some j => listModify (fun _ => .empty) j slots

/-- A slot is WRITING its kept essence to a place (R25). -/
def StagingSlot.writing (x : StagingSlot) (place : Nat) : StagingSlot :=
  { StagingSlot.empty with st := .writing, kept := x.keeps, place := place }

/-- The window after its oldest position has closed, with E (R30). -/
def Ingest.advance (x : Ingest) (length : Nat) : Ingest :=
  match x.window with
  | [] => x
  | pos :: rest =>
    if pos.draining then { x with window := rest }
    else
      let newest := (rest.getLast?.map (·.ts)).getD pos.ts
      let window := rest ++ [.open_ (newest + BitVec.ofNat 32 length)]
      { x with window := window, expected := ((window.find? fun y => !y.draining).map (·.ts)).or x.expected }

/-- The slice that a closing mark closes (R30). -/
def Ingest.closes (x : Ingest) : Closed :=
  match x.window with
  | [] => .nothing
  | pos :: _ => closePosition pos x.slots

/-! ## The record (R33, R43) -/

/-- A kind as the !PARTIAL notice lists it. -/
def Kind.text : Kind → String
  | .video => "VIDEO"
  | .audio => "AUDIO"
  | .caption => "CAPTION"

/-- Whether an INGEST_BACK comes with this closure (R35). -/
def comesBack (cond : Condition) (lossRun : Nat) : Bool := (cond = .intact || cond = .partialSlice) && lossRun ≠ 0

/-- The record of a closed slice with a claimed page, none for LOSS (R33, R43). -/
def newRecord (c : Closed) (page : Option Nat) (isn : Isn) (derived : DispFields × Option Nat) (s : State) : Rec :=
  let lost := c.cond = .loss
  let kept := if lost then Essence.empty else c.held.keeps
  { isn := isn
    ts := if lost then none else c.ts
    tc := if lost then none else c.held.tc
    page := page
    videoBytes := kept.video.length
    audio := kept.audio.isSome
    captBytes := kept.captions.length
    cond := c.cond
    loss := c.loss
    quiet := lost || isQuiet s.force.speech s.force.quiet s.sliceLength kept.audio
    fields := derived.1
    cut := derived.2
    life := if lost then .held else .writing
    committed := false
    ended := false
    skipped := false
    edit := 0
    noticed := c.cond ≠ .intact || comesBack c.cond s.ingest.lossRun }

/-- The Hold Line creates the record and asks the Cut Engine for its disposition, which then closes the cuts the record
meets (R43, R74). A claimed page leaves the free pool in the same event. -/
def createRecord (c : Closed) (page : Option Nat) (s : State) : State :=
  let isn := s.line.nextIsn
  let s := s.onCuts fun e => { e with head := isn }
  let r := newRecord c page isn (s.cuts.derive isn) s
  closeCuts isn r.tc
    (s.onLine fun l =>
      { l with
        records := l.records ++ [r]
        nextIsn := isn + 1
        freePool := if page.isSome then l.freePool.drop 1 else l.freePool })

/-- The Ingest Unit's slot and the ingest write of a slice with a page; its slot is FREE otherwise (R25, R33). -/
def settleSlot (c : Closed) (page : Option Nat) (s : State) : State :=
  match page, c.slot with
  | some p, some j =>
    request (.ingestWrite p j c.held.keeps)
      (s.onIngest fun x => { x with slots := listModify (fun y => y.writing p) j x.slots })
  | _, slot => s.onIngest fun x => { x with slots := freeStaging slot x.slots }

/-- Counting at the closure (R33). -/
def countClosure (c : Closed) (s : State) : State :=
  match c.cond with
  | .intact | .damaged => countCaptions s
  | .partialSlice => countCaptions (countPartial s)
  | .loss => countLoss s
where
  /-- Captions kept of a truncated run. -/
  countCaptions (s : State) : State :=
    if c.held.caption.truncated && c.held.keeps.captions ≠ [] then countCaptionsCut s else s

/-- The notice of a closure, at most one (R35, R47). `before` is the record closed before, `older` the loss reason of its
predecessor in the line. For NO_PAGE, MISSING, NO_PAGE two sentences of R47 differ: the second NO_PAGE has a predecessor
that is not a NO_PAGE record, so it is noticed; but no record has claimed a page, so the run has not ended. The model
follows the predecessor and notices it (DEDUCED, log entry 45). -/
def closureNotice (c : Closed) (isn : Isn) (lossRun count : Nat) (before : Option (Condition × Option LossReason))
    (older : Option LossReason) : Option Notice :=
  match c.cond, c.loss with
  | .loss, some .noPage =>
    if older = some .noPage then none
    else some ⟨"!OVERRUN", .ingest, .degraded, [("ISN", .isn isn), ("RECORDS", .num count)]⟩
  | .loss, reason =>
    if before = some (.loss, reason) then none
    else some ⟨"!LOSS", .ingest, .degraded,
      [("ISN", .isn isn), ("REASON", .word ((reason.map LossReason.text).getD "NONE"))]⟩
  | cond, _ =>
    if comesBack cond lossRun then
      some ⟨"!INGEST_BACK", .ingest, .degraded, [("ISN", .isn isn), ("LOST", .num lossRun)]⟩
    else if cond = .partialSlice then
      some ⟨"!PARTIAL", .ingest, .degraded,
        [("ISN", .isn isn), ("MISSING", .word (wordList "," (c.held.missing.map Kind.text))),
          ("REJECTED", .word (wordList "," (c.held.rejected.map Kind.text)))]⟩
    else none

/-- The loss run after a closure (R35). -/
def lossRunAfter (cond : Condition) (loss : Option LossReason) (n : Nat) : Nat :=
  match cond, loss with
  | .loss, some .noPage => n
  | .loss, _ => satAdd 4294967295 n 1
  | _, _ => 0

/-- Raise a notice, if there is one. -/
def raiseOpt (n : Option Notice) (s : State) : State :=
  match n with
  | some n => raise n s
  | none => s

/-- The program path closes one slice: the window moves on, a page is claimed, the record is created, and counters,
notice and INGEST watches follow (R30 to R35, R43, R47, R74, R174). -/
def closeProgram (s : State) : State :=
  let closed := s.ingest.closes
  let isn := s.line.nextIsn
  let older := s.line.newest.bind (·.loss)
  let page := if closed.cond = .loss then none else s.line.freePool.head?
  let c := if closed.cond ≠ .loss && page.isNone then closed.noPage else closed
  let lossRun := s.ingest.lossRun
  let before := s.ingest.last
  let s := countClosure c (createRecord c page (settleSlot c page (s.onIngest fun x => x.advance s.sliceLength)))
  let s := raiseOpt (closureNotice c isn lossRun s.line.count before older)
    (s.onIngest fun x => { x with lossRun := lossRunAfter c.cond c.loss lossRun, last := some (c.cond, c.loss) })
  testWatches .ingest isn ((s.line.find isn).bind (·.tc)) s

/-! ## The lane at a closing mark (R37, R39) -/

/-- The newest of the lane's positions, after an oldest one. -/
def newestTs (positions : List Position) (default : U32) : U32 := (positions.getLast?.map (·.ts)).getD default

/-- The lane's positions after the oldest has closed: one more is appended while clips are wanted (R39). -/
def Lane.advance (l : Lane) (length : Nat) (rest : List Position) : Lane :=
  let l := { l with clip := l.clip + 1 }
  if l.clip < l.count then
    { l with
      positions := rest ++ [.open_ (newestTs rest l.expected + BitVec.ofNat 32 length)]
      expected := (rest.head?.map (·.ts)).getD l.expected }
  else
    { l with
      st := .finishing
      positions := []
      slots := rest.foldl (fun slots pos => freeStaging pos.slot slots) l.slots }

/-- What a closure does to the lane's slots and its fault mark: an INTACT slice is being written, another sets the mark
(R39). -/
def Lane.closed (l : Lane) (c : Closed) : Lane :=
  match c.cond, c.slot with
  | .intact, some j => { l with slots := listModify (fun y => y.writing (l.base + l.clip)) j l.slots }
  | _, slot => { l with faultMark := true, slots := freeStaging slot l.slots }

/-- An INTACT slice goes to block base + p as a cover-load write (R39). -/
def sendClip (c : Closed) (window block : Nat) (s : State) : State :=
  match c.cond, c.slot with
  | .intact, some j => request (.loadWrite window block j c.held.keeps) s
  | _, _ => s

/-- The lane closes a position (R39). -/
def closeLanePosition (pos : Position) (rest : List Position) (s : State) : State :=
  let c := closePosition pos s.lane.slots
  laneEnds (sendClip c s.lane.window (s.lane.base + s.lane.clip)
    (s.onLane fun l => (l.closed c).advance s.sliceLength rest))

/-- The lane at a closing mark: the lead-in goes at the first in RUNNING, and a position closes at each later one (R37,
R39). -/
def closeLane (s : State) : State :=
  if s.lane.st ≠ .running then s
  else if s.lane.leadInHeld then
    s.onLane fun l =>
      { l with
        leadInHeld := false
        positions := l.positions ++ [.open_ (newestTs l.positions l.expected + BitVec.ofNat 32 s.sliceLength)] }
  else match s.lane.positions with
    | [] => s
    | pos :: rest => closeLanePosition pos rest s

/-- CLOSING_MARK (R9, R30): the mark is no longer pending, and one slice closes on the program path and one on the lane.
Without a mark pending there is none to give. -/
def execClosingMark (s : State) : Host.Outcome State Fault Refusal :=
  if !s.runs || !s.timer.markPending then .next s
  else if Config.recordSlots ≤ s.line.count then .fault .noRecordSlot
  else .next (closeLane (closeProgram
    ((s.atTime s.timer.markDue).onTimer fun t => { t with markPending := false })))

end Sys2Proof.Machine
end

