-- ==== Sys2Proof/Machine/Settings.lean ====
section
/-! DEFINITION. The Settings Store (sections 11.1 to 11.3): parameters and their forms, the waiting station table,
profiles and saves, and the commands SET, SET_STATION, PARAM, SAVE, SAVE_COMPLETE, SAVE_TIMEOUT and PROFILE. -/

namespace Sys2Proof.Machine

/-! ## Parameters (R195) -/

/-- The catalogue: keys with their parameters, in the order of R195. -/
def paramKeys : List (String × ParamKey) :=
  [("RATE", .rate), ("STREAM", .stream), ("T", .target), ("B", .band), ("RB", .rebuild), ("RT", .trim), ("C", .fade),
    ("QUIET", .quiet), ("SPEECH", .speech), ("REACT", .react), ("POSTROLL", .postRoll), ("DUMPDEPTH", .dumpDepth),
    ("DUMPTAIL", .dumpTail), ("OPENLIMIT", .openLimit), ("AUTOLEVEL", .autoLevel), ("PREFETCH", .prefetch),
    ("PAYLOAD", .payload), ("OUTSTREAM", .outStream), ("INITSEQ", .initSeq), ("TONE", .tone),
    ("AUTOENGAGE", .autoEngage)]

/-- The value of a parameter as a number: a mask by its sixteen bits, a flag as 1 for YES. -/
def Params.get (p : Params) : ParamKey → Nat
  | .rate => p.rate
  | .stream => p.stream
  | .target => p.target
  | .band => p.band
  | .rebuild => p.rebuild
  | .trim => p.trim
  | .fade => p.fade
  | .quiet => p.quiet
  | .speech => p.speech.toNat
  | .react => p.react
  | .postRoll => p.postRoll
  | .dumpDepth => p.dumpDepth
  | .dumpTail => p.dumpTail
  | .openLimit => p.openLimit
  | .autoLevel => p.autoLevel
  | .prefetch => p.prefetch
  | .payload => p.payload
  | .outStream => p.outStream
  | .initSeq => p.initSeq
  | .tone => p.tone
  | .autoEngage => p.autoEngage.toNat

/-- Set a parameter. -/
def Params.set (p : Params) (k : ParamKey) (n : Nat) : Params :=
  match k with
  | .rate => { p with rate := n }
  | .stream => { p with stream := n }
  | .target => { p with target := n }
  | .band => { p with band := n }
  | .rebuild => { p with rebuild := n }
  | .trim => { p with trim := n }
  | .fade => { p with fade := n }
  | .quiet => { p with quiet := n }
  | .speech => { p with speech := BitVec.ofNat 16 n }
  | .react => { p with react := n }
  | .postRoll => { p with postRoll := n }
  | .dumpDepth => { p with dumpDepth := n }
  | .dumpTail => { p with dumpTail := n }
  | .openLimit => { p with openLimit := n }
  | .autoLevel => { p with autoLevel := n }
  | .prefetch => { p with prefetch := n }
  | .payload => { p with payload := n }
  | .outStream => { p with outStream := n }
  | .initSeq => { p with initSeq := n }
  | .tone => { p with tone := n }
  | .autoEngage => { p with autoEngage := n = 1 }

/-- What a parameter may hold (R195). -/
inductive ParamRange
  /-- clamped to the nearer end -/
  | clamped (lo hi : Nat)
  /-- refused outside the range -/
  | refused (lo hi : Nat)
  /-- one of a list, refused otherwise -/
  | oneOf (ns : List Nat)
  /-- refused when not a multiple, clamped otherwise (R135) -/
  | multiple (of lo hi : Nat)

/-- The ranges of R195. -/
def ParamKey.range : ParamKey → ParamRange
  | .rate => .oneOf [25, 30, 50, 60]
  | .stream => .clamped 0 15
  | .target => .clamped 1 3600
  | .band => .clamped 0 50
  | .rebuild => .clamped 1 409
  | .trim => .clamped 1 409
  | .fade => .oneOf [16, 32, 64, 128, 256]
  | .quiet => .clamped 0 8388607
  | .speech => .refused 0 65535
  | .react => .clamped 0 100
  | .postRoll => .clamped 0 25
  | .dumpDepth => .clamped 0 3600
  | .dumpTail => .clamped 0 25
  | .openLimit => .clamped 25 3600
  | .autoLevel => .clamped 1 15
  | .prefetch => .clamped 1 3
  | .payload => .multiple 64 1024 8192
  | .outStream => .clamped 0 15
  | .initSeq => .clamped 0 65535
  | .tone => .clamped 0 8388607
  | .autoEngage => .oneOf [0, 1]

/-- The value stored for a value given, or none when it is refused (R195). -/
def ParamKey.accept (k : ParamKey) (n : Nat) : Option Nat :=
  match k.range with
  | .clamped lo hi => some (max lo (min hi n))
  | .refused lo hi => if lo ≤ n && n ≤ hi then some n else none
  | .oneOf ns => if ns.contains n then some n else none
  | .multiple d lo hi => if n % d = 0 then some (max lo (min hi n)) else none

/-- The value as given in a request, as a number: sixteen letters for the mask, YES or NO for the flag, and a number of
one to ten digits for the others (R195). -/
def ParamKey.read (k : ParamKey) (v : String) : Option Nat :=
  match k with
  | .speech => (maskOf v.toList).map (·.toNat)
  | .autoEngage => if v = "YES" then some 1 else if v = "NO" then some 0 else none
  | .rate | .stream | .target | .band | .rebuild | .trim | .fade | .quiet | .react | .postRoll | .dumpDepth | .dumpTail
  | .openLimit | .autoLevel | .prefetch | .payload | .outStream | .initSeq | .tone => numberOf v.toList

/-- A parameter's value as sent. -/
def ParamKey.val (k : ParamKey) (n : Nat) : Val :=
  match k with
  | .speech => .mask (BitVec.ofNat 16 n)
  | .autoEngage => .word (yesNo (n = 1))
  | .rate | .stream | .target | .band | .rebuild | .trim | .fade | .quiet | .react | .postRoll | .dumpDepth | .dumpTail
  | .openLimit | .autoLevel | .prefetch | .payload | .outStream | .initSeq | .tone => .num n

/-- The values in force after a reference pulse: the stored ones, but for those that wait for the next reset (R195). -/
def Params.atPulse (stored force : Params) : Params :=
  { stored with rate := force.rate, stream := force.stream, initSeq := force.initSeq, autoEngage := force.autoEngage }

/-! ## SET (R196) -/

/-- One key of a SET that passes: its key, the value given and the value stored. -/
structure Setting where
  name : String
  key : ParamKey
  given : Nat
  stored : Nat
  deriving DecidableEq, Repr

/-- The check of one key of a SET (R196). -/
def settingOf (f : String × String) : Option Setting := do
  let k ← paramKeys.lookup f.1
  let given ← k.read f.2
  let stored ← k.accept given
  some ⟨f.1, k, given, stored⟩

/-- A value is stored and handed to its owner. -/
def Settings.store (x : Settings) (p : Setting) : Settings := { x with stored := x.stored.set p.key p.stored }

/-- SET of parameters (R196). -/
def answerSet (p : Port) (r : Request) (s : State) : State :=
  match allSome (r.keys.map settingOf) with
  | none | some [] => answer p .bad [] s
  | some settings =>
    answer p (if settings.any fun x => x.stored ≠ x.given then .clamped else .ok)
      (settings.map fun x => (x.name, x.key.val x.stored))
      (s.onSettings fun x => settings.foldl Settings.store x)

/-- SET (R196). -/
def execSet (p : Port) (s : State) : Host.Outcome State Fault Refusal :=
  .next (takeRouted p (fun r => r.word = .set && !r.has "STATION") (answerSet p) s)

/-! ## SET with STATION= (R197) -/

/-- The runs between the characters +. -/
def splitPlus : List Char → List (List Char)
  | [] => [[]]
  | c :: cs =>
    if c = '+' then [] :: splitPlus cs
    else match splitPlus cs with
      | [] => [[c]]
      | t :: ts => (c :: t) :: ts

/-- A list of words joined by +, each of them known, or NONE (R197). -/
def plusList (known : List String) (v : String) : Option (List String) :=
  if v = "NONE" then some []
  else
    let ws := (splitPlus v.toList).map String.ofList
    if ws.all fun w => known.contains w then some ws else none

/-- PERMS= (R197). -/
def permsOf (v : String) : Option Perms :=
  (plusList ["CUT", "PACE", "SETUP", "VIEW"] v).map fun ws =>
    ⟨ws.contains "CUT", ws.contains "PACE", ws.contains "SETUP", ws.contains "VIEW"⟩

/-- GROUPS= (R197). -/
def groupsOf (v : String) : Option Groups :=
  (plusList ["CUTS", "PACING", "FAULTS", "INGEST", "WATCH", "SETUP"] v).map fun ws =>
    ⟨ws.contains "CUTS", ws.contains "PACING", ws.contains "FAULTS", ws.contains "INGEST", ws.contains "WATCH",
      ws.contains "SETUP"⟩

/-- PORT= (R197). -/
def portSelOf : String → Option PortSel
  | "A" => some (.only .a)
  | "B" => some (.only .b)
  | "N" => some (.only .n)
  | "ANY" => some .any
  | _ => none

/-- PORT= as sent. -/
def PortSel.text : PortSel → String
  | .only .a => "A"
  | .only .b => "B"
  | .only .n => "N"
  | .any => "ANY"

/-- The words of a list whose mark is set. -/
def wordsOn (xs : List (Bool × String)) : List String := (xs.filter (·.1)).map (·.2)

/-- PERMS= as sent: its words in the order in which R197 lists them, whatever order they were given in, which is the
model's choice (R197, log entry 73). -/
def Perms.text (p : Perms) : String :=
  wordList "+" (wordsOn [(p.cut, "CUT"), (p.pace, "PACE"), (p.setup, "SETUP"), (p.view, "VIEW")])

/-- GROUPS= as sent, its words in the order of R197 likewise (log entry 73). -/
def Groups.text (g : Groups) : String :=
  wordList "+" (wordsOn [(g.cuts, "CUTS"), (g.pacing, "PACING"), (g.faults, "FAULTS"), (g.ingest, "INGEST"),
    (g.watch, "WATCH"), (g.setup, "SETUP")])

/-- The fields of an entry (R197). -/
def Station.reportFields (st : Station) : List Field :=
  [("STATION", .num st.station), ("PORT", .word st.port.text), ("LEVEL", .num st.level), ("PERMS", .word st.perms.text),
    ("GROUPS", .word st.groups.text)]

/-- The fields of a station that a SET carries, each absent or in form. -/
structure StationFields where
  port : Option PortSel
  level : Option Nat
  perms : Option Perms
  groups : Option Groups
  deriving DecidableEq, Repr

/-- The station fields of a request, or none when a value is out of form or range (R197). -/
def Request.stationFields (r : Request) : Option StationFields := do
  let port ← optionalKey r "PORT" portSelOf
  let level ← optionalKey r "LEVEL" fun v => numberIn 1 15 v.toList
  let perms ← optionalKey r "PERMS" permsOf
  let groups ← optionalKey r "GROUPS" groupsOf
  some ⟨port, level, perms, groups⟩

/-- A held entry takes the fields given and keeps the others (R197). -/
def StationFields.applyTo (f : StationFields) (st : Station) : Station :=
  { st with
    port := f.port.getD st.port
    level := f.level.getD st.level
    perms := f.perms.getD st.perms
    groups := f.groups.getD st.groups }

/-- A new entry, when all four fields are given (R197). -/
def StationFields.newEntry (f : StationFields) (n : Nat) : Option Station :=
  match f with
  | ⟨some port, some level, some perms, some groups⟩ => some ⟨n, port, level, perms, groups, none, none⟩
  | _ => none

/-- The waiting table, a copy of the table in force when none waits (R197). -/
def Ports.waitingTable (ps : Ports) : List Station := ps.waiting.getD ps.table

/-- A station of a table. -/
def stationIn (table : List Station) (n : Nat) : Option Station := table.find? fun st => st.station = n

/-- The waiting table after a change that adds or changes a station; or the refusal (R197). -/
def changeTable (table : List Station) (n : Nat) (f : StationFields) : Except ResultWord (List Station × Station) :=
  match stationIn table n, f.newEntry n with
  | some st, _ => .ok (table.map (fun x => if x.station = n then f.applyTo st else x), f.applyTo st)
  | none, none => .error .bad
  | none, some st => if Config.stationEntries ≤ table.length then .error .full else .ok (table ++ [st], st)

/-- The change of one entry (R197). -/
def changeStation (p : Port) (n : Nat) (r : Request) (s : State) : State :=
  match r.stationFields with
  | none => answer p .bad [] s
  | some f => match changeTable s.ports.waitingTable n f with
    | .error word => answer p word [] s
    | .ok (table, st) => answer p .ok st.reportFields (s.onPorts fun ps => { ps with waiting := some table })

/-- REMOVE=YES (R197). -/
def removeStation (p : Port) (n : Nat) (s : State) : State :=
  match stationIn s.ports.waitingTable n with
  | none => answer p .notFound [] s
  | some _ =>
    answer p .ok [("STATION", .num n), ("REMOVED", .word "YES")]
      (s.onPorts fun ps => { ps with waiting := some (ps.waitingTable.filter fun x => x.station ≠ n) })

/-- SET with STATION= (R197). -/
def answerSetStation (p : Port) (r : Request) (s : State) : State :=
  match r.num "STATION" 1 99 with
  | none => answer p .bad [] s
  | some n =>
    if r.onlyKeys ["STATION", "REMOVE"] && r.key "REMOVE" = some "YES" then removeStation p n s
    else if r.onlyKeys ["STATION", "PORT", "LEVEL", "PERMS", "GROUPS"] then changeStation p n r s
    else answer p .bad [] s

/-- SET_STATION (R197). -/
def execSetStation (p : Port) (s : State) : Host.Outcome State Fault Refusal :=
  .next (takeRouted p (fun r => r.word = .set && r.has "STATION") (answerSetStation p) s)

/-! ## Profiles (R199) -/

/-- A slot, 0 to 4. -/
def Settings.slot (x : Settings) (n : Nat) : ProfileSlot := (x.slots[n]?).getD (.blank n)

/-- The tag of a parameter's record: its place in the catalogue of R195, from 1 (log entry 29). -/
def ParamKey.tag (k : ParamKey) : Nat := (paramKeys.findIdx fun f => f.2 = k) + 1

/-- A port field as a number (log entry 29). -/
def PortSel.code : PortSel → Nat
  | .only .a => 1
  | .only .b => 2
  | .only .n => 3
  | .any => 4

/-- Permissions as bits (log entry 29). -/
def Perms.bits (p : Perms) : Nat := p.cut.toNat + 2 * p.pace.toNat + 4 * p.setup.toNat + 8 * p.view.toNat

/-- Notice groups as bits (log entry 29). -/
def Groups.bits (g : Groups) : Nat :=
  g.cuts.toNat + 2 * g.pacing.toNat + 4 * g.faults.toNat + 8 * g.ingest.toNat + 16 * g.watch.toNat + 32 * g.setup.toNat

/-- The tag and the value of a record. The manual gives neither the tags nor the places of a value; these are the
model's (log entry 29). -/
def ProfileRecord.numbers : ProfileRecord → List Nat
  | .param k n => [k.tag, n / 65536, n]
  | .station st => [64, st.station, st.port.code, st.level, st.perms.bits, st.groups.bits]
  | .window n d => [65, n, d.base, d.length, d.loop.toNat]
  | .unknown tag value => tag :: value
  | .broken ws => ws

/-- The 16-bit words of a profile's body (R199). -/
def bodyWords (body : List ProfileRecord) : List Nat := (body.flatMap ProfileRecord.numbers).map (· % 65536)

/-- The checksum over a body: the ones' complement of the ones' complement sum of its words (R17, R199). -/
def bodyChecksum (body : List ProfileRecord) : BitVec 16 := BitVec.ofNat 16 (65535 - onesSum (bodyWords body))

/-- The checksum of a slot's header verifies: the words of the body and the checksum sum to 0xFFFF (R17, R199). -/
def ProfileSlot.verifies (x : ProfileSlot) : Bool := onesSum (bodyWords x.body ++ [x.checksum.toNat]) = 65535

/-- A record parses (R199). -/
def ProfileRecord.parses : ProfileRecord → Bool
  | .broken _ => false
  | .param _ _ | .station _ | .window _ _ | .unknown _ _ => true

/-- A slot is valid: its header names its own slot number, its checksum verifies, its body's records parse, and no save
of it was interrupted (R199). -/
def Settings.valid (x : Settings) (n : Nat) : Bool :=
  let y := x.slot n
  y.number = n && y.verifies && y.body.all ProfileRecord.parses && !y.interrupted

/-- The parameters of a profile's body: a value is clamped or takes the default, as R199 lays down. -/
def loadParams (body : List ProfileRecord) : Params :=
  body.foldl (fun p r => match r with
    | .param k n => p.set k ((k.accept n).getD (Params.defaults.get k))
    | .station _ | .window _ _ | .unknown _ _ | .broken _ => p) .defaults

/-- One more station entry of a body, unless its number has been read or eight are held (R199). The eighth is counted among
the entries held, so that an ignored second entry of a station does not count towards it (log entry 74); and an entry whose
number or level lies outside the ranges of R197 is taken as it stands (log entry 63). Both are the model's choices. -/
def addEntry (table : List Station) (st : Station) : List Station :=
  if (stationIn table st.station).isSome || Config.stationEntries ≤ table.length then table
  else table ++ [st.unbound]

/-- The station table of a profile's body (R199). -/
def loadTable (body : List ProfileRecord) : List Station :=
  body.foldl (fun table r => match r with
    | .station st => addEntry table st
    | .param _ _ | .window _ _ | .unknown _ _ | .broken _ => table) []

/-- A definition lies within the cover area (R162). -/
def WindowDef.fits (d : WindowDef) : Bool := 1 ≤ d.length && d.base + d.length ≤ Config.coverBlocks

/-- The definition a body gives a window, when it fits (R169). A window record that names no window of 1 to 8 is never
asked for, and one that does not fit the 256 blocks is no definition, at a PROFILE load as at power-on; neither is then
listed in UNDEF=, which lists overlaps (R199, R202; DESIGN CHOICE, log entry 72). -/
def windowIn (body : List ProfileRecord) (n : Nat) : Option WindowDef :=
  (body.findSome? fun r => match r with
    | .window k d => if k = n then some d else none
    | .param _ _ | .station _ | .unknown _ _ | .broken _ => none).filter (·.fits)

/-- The windows 1 to 8. -/
def windowNumbers : List Nat := [1, 2, 3, 4, 5, 6, 7, 8]

/-- One more window of a profile is taken, unless it overlaps one already taken (R169, R202). -/
def addWindow (taken : List (Nat × WindowDef)) (w : Nat × WindowDef) : List (Nat × WindowDef) :=
  if taken.any fun x => x.2.overlaps w.2 then taken else taken ++ [w]

/-- The windows of a body with their definitions, in window order. -/
def windowsOf (body : List ProfileRecord) (numbers : List Nat) : List (Nat × WindowDef) :=
  numbers.filterMap fun n => (windowIn body n).map fun d => (n, d)

/-- The table of cover windows that power-on takes from a body (R169). -/
def loadWindows (body : List ProfileRecord) : List WindowEntry :=
  let taken := (windowsOf body windowNumbers).foldl addWindow []
  windowNumbers.map fun n => match taken.lookup n with
    | some d => .emptyOf d
    | none => .undefinedEntry

/-! ## SAVE (R200, R201) -/

/-- The user slots. -/
def userSlots : List Nat := [1, 2, 3, 4]

/-- The highest generation among the valid user slots, 0 when none is valid (R200). -/
def Settings.topGeneration (x : Settings) : Nat :=
  ((userSlots.filter x.valid).map fun n => (x.slot n).gen).foldl max 0

/-- The snapshot of a SAVE (R200): every parameter, the table with its waiting changes, and the defined windows. -/
def snapshot (s : State) : List ProfileRecord :=
  (paramKeys.map fun k => .param k.2 (s.settings.stored.get k.2))
    ++ (s.ports.waitingTable.map fun st => .station st.unbound)
    ++ ((s.store.windows.zipIdx 1).filterMap fun w => w.1.defn.map fun d => .window w.2 d)

/-- Replace a slot. -/
def Settings.putSlot (x : Settings) (n : Nat) (slot : ProfileSlot) : Settings :=
  { x with slots := listModify (fun _ => slot) n x.slots }

/-- The slot is made invalid at once and the save begins (R200). -/
def beginSave (n gen : Nat) (s : State) : State :=
  s.onSettings fun x =>
    { x.putSlot n { x.slot n with interrupted := true } with save := some ⟨n, gen, s.now, snapshot s⟩ }

/-- SLOT= as the only key, 0 to 4. -/
def Request.slotOnly (r : Request) : Option Nat := if r.onlyKeys ["SLOT"] then r.num "SLOT" 0 4 else none

/-- SAVE (R200). -/
def answerSave (p : Port) (r : Request) (s : State) : State :=
  match r.slotOnly with
  | none => answer p .bad [] s
  | some n =>
    let gen := s.settings.topGeneration + 1
    if n = 0 then answer p .notPermitted [] s
    else if s.settings.save.isSome then answer p .busy [] s
    else if 4294967295 < gen then answer p .full [] s
    else answer p .started [("SLOT", .num n), ("GEN", .num gen)] (beginSave n gen s)

/-- SAVE (R200). -/
def execSave (p : Port) (s : State) : Host.Outcome State Fault Refusal :=
  .next (takeRouted p (fun r => r.word = .save) (answerSave p) s)

/-- The slot as a SAVE writes it: body and header (R199, R200). -/
def Save.written (x : Save) : ProfileSlot := ⟨x.slot, x.gen, bodyChecksum x.body, false, x.body⟩

/-- The save has ended with its slot valid (R200). -/
def saveDone (x : Save) (s : State) : State :=
  raise ⟨"!SAVED", .setup, .concealed, [("SLOT", .num x.slot), ("GEN", .num x.gen)]⟩
    (s.onSettings fun y => { y.putSlot x.slot x.written with save := none })

/-- The save has ended with its slot left invalid (R200). -/
def saveFailed (x : Save) (reason : String) (s : State) : State :=
  raise ⟨"!SAVE_FAILED", .setup, .attention, [("SLOT", .num x.slot), ("REASON", .word reason)]⟩
    (s.onSettings fun y => { y with save := none })

/-- SAVE_COMPLETE (R200). Without a save in flight there is nothing to finish. -/
def execSaveComplete (readsBack : Bool) (s : State) : Host.Outcome State Fault Refusal :=
  .next <|
    match s.runs, s.settings.save with
    | true, some x => if readsBack then saveDone x s else saveFailed x "WRITE" s
    | _, _ => s

/-- SAVE_TIMEOUT (R200): 400 ms from the beginning of the save. -/
def execSaveTimeout (s : State) : Host.Outcome State Fault Refusal :=
  .next <|
    match s.runs, s.settings.save with
    | true, some x => saveFailed x "TIMEOUT" (s.atTime (x.began + Config.saveLimit))
    | _, _ => s

/-! ## PROFILE (R202) -/

/-- What a PROFILE load makes of one window. -/
inductive WindowFate
  /-- its definition is the profile's own -/
  | same
  /-- LOADING, with another definition: it keeps its own and its load -/
  | kept
  /-- first undefined -/
  | dropped
  deriving DecidableEq, Repr

/-- The fate of a window under a body (R202). -/
def windowFate (st : Store) (body : List ProfileRecord) (n : Nat) : WindowFate :=
  let w := st.window n
  if w.defn = windowIn body n then .same else if w.st = .loading then .kept else .dropped

/-- The windows that a body is to define anew, in window order. -/
def dropped (st : Store) (body : List ProfileRecord) : List Nat :=
  windowNumbers.filter fun n => windowFate st body n = .dropped

/-- The LOADING windows that keep their old definitions (R202). -/
def keptWindows (st : Store) (body : List ProfileRecord) : List Nat :=
  windowNumbers.filter fun n => windowFate st body n = .kept

/-- The windows and definitions that stand after a load (R202). -/
def takenWindows (st : Store) (body : List ProfileRecord) : List (Nat × WindowDef) :=
  let standing := windowNumbers.filterMap fun n =>
    if windowFate st body n = .dropped then none else (st.window n).defn.map fun d => (n, d)
  (windowsOf body (dropped st body)).foldl addWindow standing

/-- The windows left undefined by overlap (R202). -/
def leftUndefined (st : Store) (body : List ProfileRecord) : List Nat :=
  (windowsOf body (dropped st body)).filterMap fun w =>
    if ((takenWindows st body).lookup w.1).isNone then some w.1 else none

/-- A window is set to what a load makes of it, and is changed (R168, R202). -/
def redefine (taken : List (Nat × WindowDef)) (s : State) (n : Nat) : State :=
  clearReads n (putWindow n (match taken.lookup n with
    | some d => .emptyOf d
    | none => .undefinedEntry) s)

/-- A list field, left out when the list is empty. -/
def listField (k : String) (ns : List Nat) : List Field := if ns.isEmpty then [] else [(k, .word (commaList ns))]

/-- A valid profile is loaded, at once and whole (R202). -/
def loadProfile (body : List ProfileRecord) (s : State) : State :=
  let s := s.onSettings fun x => { x with stored := loadParams body }
  let s := s.onPorts fun ps => { ps with waiting := some (loadTable body) }
  (dropped s.store body).foldl (redefine (takenWindows s.store body)) s

/-- PROFILE (R202). -/
def answerProfile (p : Port) (r : Request) (s : State) : State :=
  match r.slotOnly with
  | none => answer p .bad [] s
  | some n =>
    if s.settings.save.isSome then answer p .busy [] s
    else if !s.settings.valid n then answer p .notFound [] s
    else
      let slot := s.settings.slot n
      answer p .ok
        ([("SLOT", .num n), ("GEN", .num slot.gen)] ++ listField "WKEPT" (keptWindows s.store slot.body)
          ++ listField "UNDEF" (leftUndefined s.store slot.body))
        (loadProfile slot.body s)

/-- PROFILE (R202). -/
def execProfile (p : Port) (s : State) : Host.Outcome State Fault Refusal :=
  .next (takeRouted p (fun r => r.word = .profile) (answerProfile p) s)

/-! ## PARAM (R198) -/

/-- NAME=: the stored value, and NOW= with the value in force when the two differ (R198). -/
def nameFields (s : State) (name : String) (k : ParamKey) : List Field :=
  let stored := s.settings.stored.get k
  let force := s.force.get k
  [(name, k.val stored)] ++ (if stored = force then [] else [("NOW", k.val force)])

/-- The same entry but for its binding state. -/
def Station.sameAs (a b : Station) : Bool := a.unbound = b.unbound

/-- STATION= of PARAM: the fields and the PENDING= mark, or none for NOT-FOUND (R198). R198 takes the fields from the
waiting table whenever one waits; an entry in force that is removed there has none in it, and PENDING=REMOVE then goes
with the fields of the entry in force (DESIGN CHOICE, log entry 71). -/
def stationFields (ps : Ports) (n : Nat) : Option (List Field) :=
  match stationIn ps.waitingTable n, stationIn ps.table n with
  | some w, some t => some (w.reportFields ++ if w.sameAs t then [] else [("PENDING", .word "YES")])
  | some w, none => some (w.reportFields ++ [("PENDING", .word "YES")])
  | none, some t => some (t.reportFields ++ [("PENDING", .word "REMOVE")])
  | none, none => none

/-- SLOT= of PARAM (R198). -/
def slotFields (x : Settings) (n : Nat) : List Field :=
  [("SLOT", .num n)]
    ++ (if x.valid n then [("VALID", .word "YES"), ("GEN", .num (x.slot n).gen)] else [("VALID", .word "NO")])
    ++ (if x.save.any fun y => y.slot = n then [("SAVING", .word "YES")] else [])

/-- The start slot as sent. -/
def startVal (start : Option Nat) : Val :=
  match start with
  | some n => .num n
  | none => .word "DEFAULTS"

/-- CAUSE=, and BY= for a restart (R198, R205). -/
def Cause.fields : Cause → List Field
  | .powerOn => [("CAUSE", .word "POWER_ON")]
  | .restartLine => [("CAUSE", .word "RESTART"), ("BY", .word "LINE")]
  | .restartBy n => [("CAUSE", .word "RESTART"), ("BY", .num n)]

/-- PARAM without a key (R198). -/
def startFields (x : Settings) : List Field :=
  [("START", startVal x.start)] ++ x.cause.fields
    ++ [("SAVING", match x.save with
      | some y => .num y.slot
      | none => .word "NO")]

/-- PARAM (R198). -/
def answerParam (p : Port) (r : Request) (s : State) : State :=
  match r.keys with
  | [] => answer p .ok (startFields s.settings) s
  | [("NAME", name)] => match paramKeys.lookup name with
    | some k => answer p .ok (nameFields s name k) s
    | none => answer p .bad [] s
  | [("STATION", v)] => match numberIn 1 99 v.toList with
    | none => answer p .bad [] s
    | some n => match stationFields s.ports n with
      | some fields => answer p .ok fields s
      | none => answer p .notFound [] s
  | [("SLOT", v)] => match numberIn 0 4 v.toList with
    | some n => answer p .ok (slotFields s.settings n) s
    | none => answer p .bad [] s
  | _ => answer p .bad [] s

/-- PARAM (R198). -/
def execParam (p : Port) (s : State) : Host.Outcome State Fault Refusal :=
  .next (takeRouted p (fun r => r.word = .param) (answerParam p) s)

end Sys2Proof.Machine
end

