-- ==== Sys2Proof/Machine/Reset.lean ====
section
/-! DEFINITION. Start-up and restart (section 11.4): the start profile, power-on, restart and power loss, the transmitter's
end of a line, and the commands POWER_ON, RESET_LINE_ASSERTED, RESET_LINE_RELEASED, REPLY_SENT, RESTART and POWER_LOSS. -/

namespace Sys2Proof.Machine

/-! ## The start profile (R203) -/

/-- The valid user slot with the highest generation, the lowest-numbered of equals; else slot 0 when valid; else none,
for the built-in defaults (R203). -/
def Settings.startSlot (x : Settings) : Option Nat :=
  (userSlots.find? fun n => x.valid n && (x.slot n).gen = x.topGeneration).or (if x.valid 0 then some 0 else none)

/-- The parameters of the start profile. -/
def Settings.startParams (x : Settings) : Params :=
  match x.startSlot with
  | some n => loadParams (x.slot n).body
  | none => .defaults

/-- The station table of the start profile. -/
def Settings.startTable (x : Settings) : List Station :=
  match x.startSlot with
  | some n => loadTable (x.slot n).body
  | none => [.builtIn]

/-- The cover windows of the start profile. -/
def Settings.startWindows (x : Settings) : List WindowEntry :=
  match x.startSlot with
  | some n => loadWindows (x.slot n).body
  | none => loadWindows []

/-! ## The notices of a reset (R203, R205) -/

/-- !START (R205). -/
def startNotice (x : Settings) : Notice :=
  ⟨"!START", .setup, .concealed,
    x.cause.fields ++ (match x.cause with
      | .powerOn => [("PROFILE", startVal x.start)]
      | .restartLine | .restartBy _ => [])⟩

/-- The end of a reset: the loss watch runs from now, !START is raised, and !NO_PROFILE after it when a power-on used the
built-in defaults (R7, R203, R205). -/
def resetEnds (s : State) : State :=
  let s := s.onTimer fun _ => .init s.force.rate s.now
  let s := raise (startNotice s.settings) s
  if s.settings.cause = .powerOn && s.settings.start.isNone then
    raise ⟨"!NO_PROFILE", .setup, .attention, []⟩ s
  else s

/-! ## Power-on (R203) -/

/-- Every block takes its power-on state from the start profile. What waits in the queue of commands, the model's clock,
the reset line and the profile slots are kept. That no packet stands on Media Out after a power-on, while a restart keeps
the one it took last, is the model's choice (R147, log entry 67). -/
def powerOnState (s : State) : State :=
  let params := s.settings.startParams
  { pending := s.pending
    now := s.now
    phase := if s.resetLine then .held true else .running
    resetLine := s.resetLine
    draws := s.draws
    force := params
    timer := .init params.rate s.now
    ingest := .init
    lane := .init
    line := .init
    cuts := .init
    pace := .init params.autoEngage
    play := .init
    pack := .init params.initSeq none
    store := .init s.settings.startWindows
    ports := ⟨.init none, .init none, .init none, s.settings.startTable, none⟩
    settings := ⟨params, s.settings.slots, none, s.settings.startSlot, .powerOn⟩
    counters := .zero }

/-- POWER_ON (R203). While the reset line is held the end of the power-on waits for its release (R204). -/
def execPowerOn (s : State) : Host.Outcome State Fault Refusal :=
  .next (let s := powerOnState s; if s.runs then resetEnds s else s)

/-! ## Restart (R204) -/

/-- A window after a restart (R169). -/
def WindowEntry.restarted (rateChanges : Bool) (w : WindowEntry) : WindowEntry :=
  if rateChanges || w.st = .loading then { w with clips := 0, st := .empty } else w

/-- The Store Arbiter after a restart (R161). -/
def Store.restarted (st : Store) (rateChanges : Bool) : Store :=
  { st with
    demand := [], ingest := [], cover := [], load := [], fetch := []
    flight := none
    outstanding := st.flight.or st.outstanding
    windows := st.windows.map (WindowEntry.restarted rateChanges) }

/-- A line already begun is finished, but a restart or a port reset that was to follow it is over (R194, log entry 21). -/
def Sending.finishing (x : Sending) : Sending := { x with effect := .nothing }

/-- A port after a restart (R194). -/
def PortState.restarted (x : PortState) : PortState := .init (x.sending.map Sending.finishing)

/-- The Control Ports after a restart: a waiting table takes effect, and every binding state is cleared (R183, R194). -/
def Ports.restarted (ps : Ports) : Ports :=
  ⟨ps.a.restarted, ps.b.restarted, ps.n.restarted, ps.waitingTable.map Station.unbound, none⟩

/-- A restart: every block puts its stored values in force and takes its restart state (R204). -/
def restartState (cause : Cause) (phase : Phase) (s : State) : State :=
  let params := s.settings.stored
  { pending := s.pending
    now := s.now
    phase := phase
    resetLine := s.resetLine
    draws := s.draws
    force := params
    timer := .init params.rate s.now
    ingest := .init
    lane := .init
    line := .init
    cuts := .init
    pace := .init params.autoEngage
    play := .init
    pack := .init params.initSeq s.pack.wire
    store := s.store.restarted (s.force.rate ≠ params.rate)
    ports := s.ports.restarted
    settings := { s.settings with save := none, cause := cause }
    counters := .zero }

/-- The level of the reset line. -/
def State.setResetLine (s : State) (held : Bool) : State := { s with resetLine := held }

/-- Whether the part runs. -/
def State.setPhase (s : State) (p : Phase) : State := { s with phase := p }

/-- RESET_LINE_ASSERTED (R204): a restart is taken, and the part stays in it while the line is held. During a power-on the
reset remains a power-on. -/
def execResetLineAsserted (s : State) : Host.Outcome State Fault Refusal :=
  .next <|
    let s := s.setResetLine true
    match s.phase with
    | .off | .held true => s
    | .held false | .running => restartState .restartLine (.held false) s

/-- RESET_LINE_RELEASED (R204, R205): the reset ends. -/
def execResetLineReleased (s : State) : Host.Outcome State Fault Refusal :=
  .next <|
    let s := s.setResetLine false
    match s.phase with
    | .off | .running => s
    | .held _ => resetEnds (s.setPhase .running)

/-- RESTART carries no key; the restart is taken when its OK has been sent (R204). -/
def answerRestart (p : Port) (r : Request) (s : State) : State :=
  if r.keys.isEmpty then answerWith (.restart r.station) p .ok [] s else answer p .bad [] s

/-- RESTART (R204). -/
def execRestart (p : Port) (s : State) : Host.Outcome State Fault Refusal :=
  .next (takeRouted p (fun r => r.word = .restart) (answerRestart p) s)

/-! ## The transmitter (R186, R193) -/

/-- A line has left: what was to follow its sending takes effect, and the transmitter goes on (R186, R193, R204). -/
def lineSent (p : Port) (line : Sending) (s : State) : State :=
  let s := s.onPort p fun x => { x with sending := none }
  match line.effect with
  | .nothing => s.onPort p PortState.pump
  | .portReset => s.onPort p fun x => x.resetOutgoing.pump
  | .restart station => resetEnds (restartState (.restartBy station) .running s)

/-- REPLY_SENT (R186). A transmitter that sends nothing finishes nothing. -/
def execReplySent (p : Port) (s : State) : Host.Outcome State Fault Refusal :=
  .next <|
    match s.phase, (s.ports.get p).sending with
    | .off, _ | _, none => s
    | _, some line => lineSent p line s

/-! ## Power loss (R201) -/

/-- POWER_LOSS (R201): the part is off; a save in flight is over and leaves its slot invalid, as it has been since the
SAVE. -/
def execPowerLoss (s : State) : Host.Outcome State Fault Refusal :=
  .next ((s.onSettings fun x => { x with save := none }).setPhase .off)

end Sys2Proof.Machine
end

