-- ==== Sys2Proof/Machine/Store.lean ====
section
/-! DEFINITION. The ends of store accesses (section 8.3): outcomes, their notices, what each requester makes of them, and
the commands STORE_COMPLETION and ACCESS_TIMEOUT. -/

namespace Sys2Proof.Machine

/-- Why a request ended in FAULT (R156). -/
inductive FaultReason
  | uncorrectable | retryExhausted | timeout
  deriving DecidableEq, Repr

/-- A reason as sent. -/
def FaultReason.text : FaultReason → String
  | .uncorrectable => "UNCORRECTABLE"
  | .retryExhausted => "RETRY_EXHAUSTED"
  | .timeout => "TIMEOUT"

/-- How a request ended (R154, R156). -/
inductive AccessEnd
  | done (units : Nat)
  | fault (reason : FaultReason)
  deriving DecidableEq, Repr

/-! ## Notices (R160) -/

/-- CLASS= of a fetch. -/
def fetchClass (demand : Bool) : String := if demand then "DEMAND" else "PREFETCH"

/-- A !STORE notice of a record. -/
def storeNotice (isn : Isn) (class_ outcome : String) (extra : Field) (sev : Severity) : Notice :=
  ⟨"!STORE", .faults, sev, [("ISN", .isn isn), ("CLASS", .word class_), ("OUTCOME", .word outcome), extra]⟩

/-- The !STORE of a faulted access to the page area. -/
def faultNotice (isn : Isn) (class_ : String) (reason : FaultReason) : Notice :=
  storeNotice isn class_ "FAULT" ("REASON", .word reason.text) .degraded

/-- The record that holds a page being written (R160). -/
def HoldLine.writer (l : HoldLine) (page : Nat) : Option Isn := (l.records.find? (Rec.writesTo page)).map (·.isn)

/-- A fault of a demand fetch is told when its record is still kept, with the edit count the fetch carried (R160). -/
def HoldLine.stillWanted (l : HoldLine) (isn : Isn) (edit : Byte) : Bool :=
  (l.find isn).any fun r => r.kept && r.edit = edit

/-- The !STORE notice of an ended request, under the error pollution rule (R160). -/
def noteEnd (job : StoreJob) (e : AccessEnd) (s : State) : State :=
  match job, e with
  | .fetch demand isn _ _ _ _ _ _, .done units =>
    if units = 0 then s
    else raiseGoverned isn (storeNotice isn (fetchClass demand) "CORRECTED" ("UNITS", .num units) .concealed) s
  | .fetch true isn _ edit _ _ _ _, .fault reason =>
    if s.line.stillWanted isn edit then raiseGoverned isn (faultNotice isn "DEMAND" reason) s else s
  | .ingestWrite page _ _, .fault reason => match s.line.writer page with
    | some isn => raiseGoverned isn (faultNotice isn "INGEST" reason) s
    | none => s
  | .fetch false _ _ _ _ _ _ _, .fault _ | .ingestWrite _ _ _, .done _ | .coverRead _ _ _ _, _
  | .loadWrite _ _ _ _, _ => s

/-- Counting of an ended request: corrected units of a DONE, or the fault (R149, R156). -/
def countEnd (e : AccessEnd) (s : State) : State :=
  match e with
  | .done units => countCorrected units s
  | .fault _ => countFault s

/-! ## What the requesters make of it (R25, R40, R45, R114, R126) -/

/-- The ingest write of a page has ended: the staging slot is FREE, the record leaves WRITING, and the Playout Unit
re-plans (R25, R45, R111). -/
def ingestEnded (page slot : Nat) (done : Bool) (s : State) : State :=
  replan ((s.onIngest fun x => { x with slots := listModify (fun _ => .empty) slot x.slots }).onLine
    fun l => l.writeCompleted page done)

/-- The cover-load write of a block has ended (R40). -/
def loadWriteEnded (slot : Nat) (done : Bool) (s : State) : State :=
  laneEnds (s.onLane fun l =>
    { l with slots := listModify (fun _ => .empty) slot l.slots, faultMark := l.faultMark || !done })

/-- DONE. -/
def AccessEnd.isDone : AccessEnd → Bool
  | .done _ => true
  | .fault _ => false

/-- What a cover read brings: CLEARED when its cleared mark is set, whatever the store reported (R154, R156). -/
def coverOutcome (a : Access) (e : AccessEnd) : CoverOutcome :=
  match a.req.cleared, e, a.data with
  | true, _, _ => .cleared
  | false, .done _, some clip => .clip clip
  | false, _, _ => .fault

/-- The completion is handed to the requester (R150, R154, R156). -/
def handOn (a : Access) (e : AccessEnd) (s : State) : State :=
  match a.req.job with
  | .fetch _ isn _ edit _ _ _ _ => fetchCompleted isn edit (if e.isDone then a.data else none) s
  | .ingestWrite page slot _ => ingestEnded page slot e.isDone s
  | .coverRead isn _ _ _ => coverCompleted isn (coverOutcome a e) s
  | .loadWrite _ _ slot _ => loadWriteEnded slot e.isDone s

/-! ## The ends of an access (R154 to R158, R161) -/

/-- What an access that writes leaves in the stacked DRAM: its bytes when DONE; nothing when its last report was a RETRY,
which was not carried out (R155); open values after any other FAULT (R149, log entry 3). -/
def landWrite (job : StoreJob) (e : AccessEnd) (s : State) : State :=
  match e with
  | .done _ => s.onStore fun st => { st with mem := job.write st.mem }
  | .fault .retryExhausted => s
  | .fault .uncorrectable | .fault .timeout =>
    (s.onStore fun st => { st with mem := job.spoil s.draws st.mem }).drawn

/-- The access in flight ends its request: the memory, the counters and the notice, the next grant, and the completion
at the requester (R154, R156, log entry 23). -/
def endRequest (a : Access) (e : AccessEnd) (s : State) : State :=
  let ended := landWrite a.req.job e (s.onStore fun st => { st with flight := none })
  handOn a e (grantNext (noteEnd a.req.job e (countEnd e ended)))

/-- A RETRY of a request that has had fewer than three: it goes back to the head of its queue, and the next grant is made
by R152, so that a request of a better class goes before a retried one (R155, log entry 56). A fetch is put back also
where a newer one for its buffer slot is queued, which is the model's choice between R155 and R151 (log entry 68). -/
def putBack (a : Access) (s : State) : State :=
  grantNext (countRetry (s.onStore fun st =>
    ({ st with flight := none }).onQueue a.req.job fun q => { a.req with retries := a.req.retries + 1 } :: q))

/-- The report of the store for the access in flight; a RETRY is honoured before a FAULT reported with it (R154, R155,
R157). -/
def accessReported (a : Access) (report : StoreReport) (s : State) : State :=
  match report with
  | .done units => endRequest a (.done units) s
  | .fault => endRequest a (.fault .uncorrectable) s
  | .retry _ => if a.req.retries < 3 then putBack a s else endRequest a (.fault .retryExhausted) s

/-- How an access begun before the restart leaves the memory: a RETRY was not carried out (R155, R161). -/
def outstandingLands (a : Access) (report : StoreReport) (s : State) : State :=
  match report with
  | .done units => landWrite a.req.job (.done units) s
  | .fault => landWrite a.req.job (.fault .uncorrectable) s
  | .retry _ => s

/-- The outstanding access has ended: the mark is cleared and granting resumes (R161). -/
def outstandingEnds (s : State) : State := grantNext (s.onStore fun st => { st with outstanding := none })

/-- STORE_COMPLETION (R154, R158, R161): the report of the access in flight is taken; that of the access outstanding from
before a restart is discarded and clears the mark; any other is late and is discarded. -/
def execStoreCompletion (grant : Nat) (report : StoreReport) (s : State) : Host.Outcome State Fault Refusal :=
  .next <|
    if s.phase = .off then s
    else match s.store.outstanding, s.store.flight with
      | some a, _ => if a.grant = grant then outstandingEnds (outstandingLands a report s) else s
      | none, some a => if a.grant = grant then accessReported a report s else s
      | none, none => s

/-- ACCESS_TIMEOUT (R158, R161): the access at the store has run 2 ms from its grant. -/
def execAccessTimeout (s : State) : Host.Outcome State Fault Refusal :=
  .next <|
    if s.phase = .off then s
    else match s.store.outstanding, s.store.flight with
      | some a, _ =>
        outstandingEnds (landWrite a.req.job (.fault .timeout) (s.atTime (a.grantedAt + Config.accessLimit)))
      | none, some a => endRequest a (.fault .timeout) (s.atTime (a.grantedAt + Config.accessLimit))
      | none, none => s

end Sys2Proof.Machine
end

