-- ==== Sys2Proof/Machine/Packetizer.lean ====
section
/-! DEFINITION. The Output Packetizer (chapter 7): the handover of a slice, the cutting of a slice into packets, and the
command PACKET_SENT. -/

namespace Sys2Proof.Machine

/-! ## The reference pulse (R136) -/

/-- A reference pulse reaches the Packetizer (R136). -/
def Packetizer.pulse (p : Packetizer) : Packetizer := { p with out := p.out + 1 }

/-! ## Packets (R138 to R145) -/

/-- The runs of a slice: the kinds it carries, in order (R138). -/
def Rendered.runs (r : Rendered) : List (Kind × Bytes) :=
  [(.video, r.video), (.audio, audioBytes r.audio), (.caption, r.captions)].filter fun x => x.2 ≠ []

/-- How many payloads of size `p` a run of `n` bytes takes (R139). -/
def packetsOf (n p : Nat) : Nat := (n + p - 1) / p

/-- The kind, offset, kind total and payload of a packet of a slice, counting from 0 through the runs (R139). -/
def packetAt (p : Nat) : List (Kind × Bytes) → Nat → Option (Kind × Nat × Nat × Bytes)
  | [], _ => none
  | (kind, bs) :: rest, k =>
    if k < packetsOf bs.length p then some (kind, k * p, bs.length, (bs.drop (k * p)).take p)
    else packetAt p rest (k - packetsOf bs.length p)

/-- How many packets the runs take. -/
def packetCount (p : Nat) (runs : List (Kind × Bytes)) : Nat :=
  (runs.map fun x => packetsOf x.2.length p).sum

/-- The packet of a slice sent under a sequence number: header and payload. -/
def OutSlice.packet (o : OutSlice) (seq : BitVec 16) (k : Nat) : Option Bytes :=
  (packetAt o.payload o.slice.runs k).map fun (kind, offset, total, payload) =>
    outputHeader o kind seq offset payload.length total ++ payload

/-- Media Out takes the next packet of the front slice; a slice whose last packet has been sent leaves the queue
(R143, R146). -/
def Packetizer.send (p : Packetizer) : Packetizer :=
  match p.queue with
  | [] => p
  | o :: rest =>
    match o.packet p.nextSeq o.sent with
    | none => { p with queue := rest }
    | some packet =>
      { p with
        nextSeq := p.nextSeq + 1
        wire := some packet
        queue := if o.sent + 1 < packetCount o.payload o.slice.runs then { o with sent := o.sent + 1 } :: rest else rest }

/-! ## Handover (R136, R137, R146) -/

/-- The front slice is sent to its end: Media Out takes each packet as it is offered (R146). -/
def Packetizer.sendTimes : Nat → Packetizer → Packetizer
  | 0, p => p
  | k + 1, p => Packetizer.sendTimes k p.send

/-- The packets of the front slice that have not been sent. -/
def Packetizer.unsent (p : Packetizer) : Nat :=
  match p.queue with
  | [] => 0
  | o :: _ => packetCount o.payload o.slice.runs - o.sent

/-- Room for one more slice: the queue holds at most the slice being sent and the one that waits behind it, so the rest
of the front slice has gone out by the time a third is handed over (R146, log entry 36). -/
def Packetizer.makeRoom (p : Packetizer) : Packetizer :=
  if p.queue.length < 2 then p
  else { Packetizer.sendTimes p.unsent p with queue := p.queue.drop (p.queue.length - 1) }

/-- A slice handed over takes its number, its timestamp, and the stream id and payload size in force, and joins the back
of the send queue. -/
def Packetizer.take (p : Packetizer) (length stream payload : Nat) (r : Rendered) : Packetizer :=
  let p := p.makeRoom
  { p with
    handed := p.handed + 1
    queue := p.queue ++ [⟨p.handed, p.handed * BitVec.ofNat 32 length, stream, payload, 0, r⟩] }

/-- The Playout Unit hands a slice over (R133, R136). -/
def handOver (r : Rendered) (s : State) : State :=
  s.onPack fun p => p.take s.sliceLength s.force.outStream s.force.payload r

/-- PACKET_SENT (R146). With an empty send queue there is nothing to take. -/
def execPacketSent (s : State) : Host.Outcome State Fault Refusal :=
  .next (if s.runs then s.onPack Packetizer.send else s)

end Sys2Proof.Machine
end

