-- ==== Sys2Proof/Machine/Render.lean ====
section
/-! DEFINITION. Rendering (sections 6.3 to 6.5): the fade, the tone, the body of a slice, and the joins with their
treatments of the tail and the head. -/

namespace Sys2Proof.Machine

/-! ## The fade (R124) -/

/-- The faded sample at index `i` of a fade of length `c` from `a` to `b` (R124). Division of integers by a positive
number rounds toward minus infinity. -/
def fade (c : Nat) (a b : Int) (i : Nat) : Int := (a * (c - i : Int) + b * i + (c / 2 : Nat)) / c

/-! ## The tone (R125) -/

/-- The sine of k/48 of a turn for k from 0 to 12, times 2^80 and rounded down. With these the
rounding below gives the value of the exact product for every tone level from 0 to 8,388,607 (log entry 41). -/
def quarterSine : List Nat :=
  [0, 157796483910802504336660, 312893026232440587676749, 462635882124905661503633, 604462909807314587353088,
    735947409514140491852891, 854839645001009215068541, 959105337155585278654796, 1046960471077192669696698,
    1116901821066387782991457, 1167732671233449802745291, 1198583291639046153356525, 1208925819614629174706176]

/-- The magnitude of the tone at `k` from 0 to 12: the product with the level, rounded with halves up (R125). -/
def quarterTone (level k : Nat) : Int :=
  ((2 * level * (quarterSine[k]?).getD 0 + 1208925819614629174706176) / 2417851639229258349412352 : Nat)

/-- The tone sample at a phase (R125). -/
def toneAt (level phase : Nat) : Int :=
  let k := phase % 48
  if k ≤ 12 then quarterTone level k
  else if k ≤ 24 then quarterTone level (24 - k)
  else if k ≤ 36 then - quarterTone level (k - 24)
  else - quarterTone level (48 - k)

/-! ## Bodies (R123) -/

/-- The body of an output slice: its classes, whether it is ZERO for want of audio, and its sample frames. -/
structure Body where
  classes : List ChanClass
  noAudio : Bool
  frames : List Frame
  deriving DecidableEq, Repr

/-- The same class on all sixteen channels. -/
def allChannels (c : ChanClass) : List ChanClass := List.replicate 16 c

/-- Silence on all sixteen channels. -/
def silentFrames (length : Nat) : List Frame := List.replicate length (List.replicate 16 0)

/-- A silent body. -/
def Body.zero (length : Nat) (noAudio : Bool) : Body := ⟨allChannels .zero, noAudio, silentFrames length⟩

/-- The tone from a phase on. -/
def Body.tone (length level phase : Nat) : Body :=
  ⟨allChannels .tone, false, (List.range length).map fun i => List.replicate 16 (toneAt level (phase + i))⟩

/-- L sample frames out of a run of audio bytes. -/
def audioFrames (length : Nat) (audio : Bytes) : List Frame :=
  (framesOf length (samplesOf audio) ++ silentFrames length).take length

/-- Channel `i` counting from 0 is masked. -/
def maskedSample (mask : BitVec 16) (x : Int × Nat) : Int := if mask.getLsbD x.2 then 0 else x.1

/-- The classes of a MUTE with audio: ZERO on masked channels, PROGRAM on the others (R123). -/
def muteClasses (mask : BitVec 16) : List ChanClass :=
  (List.range 16).map fun i => if mask.getLsbD i then .zero else .program

/-- What a slice is rendered from: whether it is hidden (concealed, a freeze or an underrun), its fixed disposition
fields, its essence, and its clip slice when that is in hand. -/
structure Source where
  hidden : Bool
  fields : DispFields
  essence : Essence
  clip : Option Clip
  deriving DecidableEq, Repr

/-- A source of silence: a freeze or an underrun. -/
def Source.silent : Source := ⟨true, ⟨.keep, true⟩, .empty, none⟩

/-- The body of a slice, with the tone from `phase` on (R123). A window cover whose clip slice is not in hand has fallen
back to the tone (R126). -/
def Source.body (src : Source) (length level phase : Nat) : Body :=
  if src.hidden then .zero length false
  else match src.fields.disp, src.essence.audio, src.clip with
    | .keep, some audio, _ => ⟨allChannels .program, false, audioFrames length audio⟩
    | .mute mask, some audio, _ =>
      ⟨muteClasses mask, false, (audioFrames length audio).map fun f => f.zipIdx.map (maskedSample mask)⟩
    | .keep, none, _ | .mute _, none, _ => .zero length true
    | .cover .silence _, _, _ => .zero length false
    | .cover .tone _, _, _ => .tone length level phase
    | .cover (.window _) _, _, none => .tone length level phase
    | .cover (.window _) _, _, some clip =>
      match clip.essence.audio with
      | some audio => ⟨allChannels (.clip clip.window (some clip.index)), false, audioFrames length audio⟩
      | none => .zero length true
    | .drop, _, _ | .shed, _, _ => .zero length true

/-- Every channel is TONE. -/
def allTone (classes : List ChanClass) : Bool := classes.all fun c => c = .tone

/-! ## Comparing classes (R127) -/

/-- A channel keeps its class from X to Y. -/
def ChanClass.continues (x y : ChanClass) : Bool :=
  match x, y with
  | .program, .program | .zero, .zero | .tone, .tone => true
  | .clip w (some i), .clip w' (some j) => w = w' && j = i + 1
  | _, _ => false

/-- The channels whose class changes. -/
def changed (x y : List ChanClass) : List Bool := (x.zip y).map fun p => !p.1.continues p.2

/-! ## The planned join and the tail (R127, R129) -/

/-- The lookahead as the plan sees it. -/
structure Ahead where
  isn : Isn
  /-- it has no page or no audio -/
  noAudio : Bool
  classes : List ChanClass
  deriving DecidableEq, Repr

/-- The classes of the lookahead, from its fixed rendering; a WINDOW cover counts as CLIP (R127). -/
def aheadClasses (fields : DispFields) (index : Option Nat) : List ChanClass :=
  match fields.disp with
  | .mute mask => muteClasses mask
  | .cover .silence _ => allChannels .zero
  | .cover .tone _ => allChannels .tone
  | .cover (.window n) _ => allChannels (.clip n index)
  | .keep | .drop | .shed => allChannels .program

/-- Records lie between an origin and a record (R127, R128). Every kept record between two that are emitted one after the
other has been skipped before the first began, so what lies between is passed. -/
def lieBetween (x y : Isn) : Bool := 1 < fwd x y

/-- The planned join of X against the lookahead (R127). -/
def plannedJoin (origin : Isn) (hidden noAudio : Bool) (classes : List ChanClass) : Option Ahead → Option Join
  | none => none
  | some a =>
    if lieBetween origin a.isn || hidden || noAudio || a.noAudio then some .gap
    else if (changed classes a.classes).contains true then some .edge
    else some .continuous

/-- What a fade runs toward or from. -/
inductive FadeOf
  | none
  | silence
  | tone
  deriving DecidableEq, Repr

/-- The tail of one channel at an EDGE (R129). -/
def edgeTail (x y : ChanClass) : FadeOf :=
  if x.continues y then .none
  else match x, y with
    | .program, .tone => .tone
    | .zero, .program | .tone, .program => .none
    | _, _ => .silence

/-- The tail of each channel under a plan (R129). -/
def tailPlan (plan : Option Join) (classes : List ChanClass) (ahead : Option Ahead) : List FadeOf :=
  match plan, ahead with
  | some .gap, _ => List.replicate 16 .silence
  | some .edge, some a => (classes.zip a.classes).map fun p => edgeTail p.1 p.2
  | _, _ => List.replicate 16 .none

/-- The tail sample `i` of a channel; a tail fade into the tone uses the phases (i - C) modulo 48 (R125, R129). -/
def tailSample (c level : Nat) (fades : List FadeOf) (i : Nat) (x : Int × Nat) : Int :=
  match (fades[x.2]?).getD .none with
  | .none => x.1
  | .silence => fade c x.1 0 i
  | .tone => fade c x.1 (toneAt level (i + 47 * c)) i

/-- Apply a treatment to each sample of a run of frames, by its index in the run. -/
def treat (f : Nat → Int × Nat → Int) (frames : List Frame) : List Frame :=
  frames.zipIdx.map fun p => p.1.zipIdx.map (f p.2)

/-- The last C samples treated (R124). -/
def treatTail (c : Nat) (f : Nat → Int × Nat → Int) (frames : List Frame) : List Frame :=
  frames.take (frames.length - c) ++ treat f (frames.drop (frames.length - c))

/-- The first C samples treated (R124). -/
def treatHead (c : Nat) (f : Nat → Int × Nat → Int) (frames : List Frame) : List Frame :=
  treat f (frames.take c) ++ frames.drop c

/-! ## The actual join and the head (R128, R129) -/

/-- What the actual join asks about the period: Y's origin and body, and the natural successor's body when it is READY. -/
structure Arrival where
  origin : Isn
  hidden : Bool
  body : Body
  /-- the period is a REPEAT or a SKIP -/
  spliced : Bool
  successor : Option Body

/-- The actual join (R128). -/
def actualJoin (x : Option OutInfo) (y : Arrival) : Join :=
  match x with
  | none => .gap
  | some x =>
    if x.plan = some .gap || x.hidden || y.hidden || x.noAudio || y.body.noAudio then .gap
    else if y.spliced then (if y.successor.isSome then .splice else .gap)
    else if lieBetween x.origin y.origin then .gap
    else if (changed x.classes y.body.classes).contains true then .edge
    else .continuous

/-- The head of one channel at an EDGE, by whether X's tail was treated on it (R129). -/
def edgeHead (x y : ChanClass) (treated : Bool) : FadeOf :=
  if x.continues y then .none
  else match x, y with
    | .program, .zero | .program, .tone => if treated then .none else .silence
    | .tone, .program => .tone
    | _, _ => .silence

/-- The head of each channel at an EDGE (R129). -/
def edgeHeads (x : Option OutInfo) (y : Body) : List FadeOf :=
  match x with
  | none => []
  | some x => ((x.classes.zip y.classes).zip x.treated).map fun p => edgeHead p.1.1 p.1.2 p.2

/-- The head sample `i` of a channel at an EDGE; `phase` continues X's tone (R129). -/
def edgeSample (c level phase : Nat) (fades : List FadeOf) (i : Nat) (y : Int × Nat) : Int :=
  match (fades[y.2]?).getD .none with
  | .none => y.1
  | .silence => fade c 0 y.1 i
  | .tone => fade c (toneAt level (phase + i)) y.1 i

/-- The sample of a body at an index of a channel. -/
def Body.sample (b : Body) (i channel : Nat) : Int := (((b.frames[i]?).getD [])[channel]?).getD 0

/-- The frames of Y with its head treated (R129). `phase` is the tone phase held. -/
def headTreated (c level phase : Nat) (join : Join) (x : Option OutInfo) (y : Arrival) : List Frame :=
  match join, y.successor with
  | .gap, _ => treatHead c (fun i v => fade c 0 v.1 i) y.body.frames
  | .splice, some n => treatHead c (fun i v => fade c (n.sample i v.2) v.1 i) y.body.frames
  | .edge, _ => treatHead c (edgeSample c level phase (edgeHeads x y.body)) y.body.frames
  | .splice, none | .continuous, _ => y.body.frames

/-- SEAM: the join is GAP or SPLICE, or an EDGE with a head fade on at least one channel (R129). -/
def seamOf (join : Join) (x : Option OutInfo) (y : Arrival) : Bool :=
  match join with
  | .gap | .splice => true
  | .edge => (edgeHeads x y.body).any fun f => f ≠ .none
  | .continuous => false

end Sys2Proof.Machine
end

