-- ==== Sys2Proof/Machine/Playout.lean ====
section
/-! DEFINITION. The period start of the Playout Unit (sections 6.2 to 6.6): what a period brings, the period-start report
and what it commits, and the output slice. -/

namespace Sys2Proof.Machine

/-! ## What a period brings (R117 to R120) -/

/-- An emission, a concealed emission, a repeat, a freeze, or an underrun. -/
inductive PeriodWork
  | emit (r : Rec) (essence : Essence)
  | conceal (r : Rec)
  | again (e : Emitted)
  | freeze (r : Rec)
  | underrun
  deriving DecidableEq, Repr

/-- The record to begin is tested for readiness (R118, R120). A record without a page needs no slot (R110). -/
def testReady (s : State) (r : Rec) : PeriodWork :=
  if r.life = .writing then .freeze r
  else if r.page.isNone then .conceal r
  else match s.play.phaseOf r.isn with
    | some (.ready _ e) => .emit r e
    | some .faulted => .conceal r
    | _ => .freeze r

/-- The kind as it is carried out: a SKIP without a follower is NORMAL (R117). -/
def kindTaken (s : State) (kind : PeriodKind) : PeriodKind :=
  if kind = .skip && s.line.waiting.length < 2 then .normal else kind

/-- The record that a kind begins, if it is ready (R117). -/
def recordToBegin (s : State) : PeriodKind → Option Rec
  | .normal | .shed => s.line.due
  | .skip => s.line.waiting[1]?
  | .repeated => none

/-- What the period brings. A REPEAT re-sends the last-emitted slot; without a record to begin there is an underrun
(R119). -/
def workOf (s : State) (kind : PeriodKind) : PeriodWork :=
  match kind, s.play.last with
  | .repeated, some e => .again e
  | _, _ => match recordToBegin s kind with
    | some r => testReady s r
    | none => .underrun

/-- The record that begins emission. -/
def PeriodWork.begun : PeriodWork → Option Rec
  | .emit r _ | .conceal r => some r
  | .again _ | .freeze _ | .underrun => none

/-- A freeze or an underrun before the first begin since the reset is neither counted nor noticed (R119). -/
def whenBegun (f : State → State) (s : State) : State := if s.play.last.isSome then f s else s

/-- What a freeze gives as its reason (R118). -/
def freezeReason (r : Rec) : String := if r.life = .writing then "WRITING" else "FETCHING"

/-- Counting and notices of a freeze or an underrun; the mark of an underrun ends when a record begins (R118, R119). -/
def noteWork (work : PeriodWork) (s : State) : State :=
  match work with
  | .freeze r => whenBegun (fun s =>
      raiseGoverned r.isn ⟨"!LATE_FETCH", .faults, .degraded,
        [("ISN", .isn r.isn), ("REASON", .word (freezeReason r))]⟩ (countLateFetch (countFreeze s))) s
  | .underrun => whenBegun (fun s =>
      let counted := countFreeze s
      if s.play.underrun then counted
      else raise ⟨"!UNDERRUN", .faults, .degraded, [("O", .isn s.pack.handed)]⟩
        (counted.onPlay fun p => { p with underrun := true })) s
  | .emit _ _ | .conceal _ => s.onPlay fun p => { p with underrun := false }
  | .again _ => s

/-! ## The report and the commit (R121, R126) -/

/-- The lookahead: the first kept record after the one that begins, or the due slice when none begins (R121). -/
def lookaheadOf (s : State) (work : PeriodWork) : Option Rec :=
  match work.begun with
  | some r => (s.line.waitingAfter r.isn).head?
  | none => s.line.due

/-- The record a SKIP passes: the due slice, when the follower begins (R117, R118). -/
def skippedOf (s : State) (kind : PeriodKind) (work : PeriodWork) : Option Rec :=
  if kind = .skip && work.begun.isSome then s.line.due else none

/-- The period-start report (R121). -/
def reportOf (s : State) (kind : PeriodKind) (work : PeriodWork) : Report where
  ended := s.line.emitting.head?.map (·.isn)
  begun := work.begun.map (·.isn)
  skipped := (skippedOf s kind work).map (·.isn)
  commit := (((lookaheadOf s work).or work.begun).or s.line.newest).map (·.isn)

/-- The kept records a report newly commits, in ISN order (R121). -/
def HoldLine.newlyCommitted (l : HoldLine) (rep : Report) : List Rec :=
  (l.reportMarks rep).records.filter fun r => r.committed && r.kept && (l.find r.isn).any fun o => !o.committed

/-- The cover run after a kept record has been committed (R126). -/
def CoverRun.next (run : Option CoverRun) (r : Rec) : Option CoverRun :=
  match r.coverWindow with
  | none => none
  | some n => some
    { cut := r.cut, window := n
      pos := match run with
        | some c => if c.cut = r.cut && c.window = n then c.pos + 1 else 0
        | none => 0 }

/-- A kept record is newly committed: it takes its position in the cover run, and its cover read is issued when it holds
a buffer slot (R126). A skipped record is not read for. -/
def commitCover (s : State) (r : Rec) : State :=
  let s := s.onPlay fun p => { p with run := CoverRun.next p.run r }
  match r.coverWindow, s.play.run, s.play.slotOf r.isn with
  | some n, some run, some i => if r.skipped then s else issueCover i r n run.pos s
  | _, _, _ => s

/-- The record that begins with a faulted slot is reported, and becomes DAMAGED (R57, R120). -/
def demandFault (work : PeriodWork) (s : State) : State :=
  match work with
  | .conceal r => if r.page.isSome then s.onLine fun l => l.modify r.isn fun r => { r with cond := .damaged } else s
  | .emit _ _ | .again _ | .freeze _ | .underrun => s

/-- The Cut Engine hears of a boundary that has moved (R53, R87). -/
def reportCommit (before : Isn) (s : State) : State :=
  if s.line.boundary = before then s else commitReport s.line.boundary s

/-- The report is sent and taken, the renderings are fixed with their cover reads, and the Cut Engine hears of the commit
(R50, R121, R126). -/
def sendReport (kind : PeriodKind) (work : PeriodWork) (s : State) : State :=
  let rep := reportOf s kind work
  let ahead := (lookaheadOf s work).map (·.isn)
  let fresh := s.line.newlyCommitted rep
  let reported := (s.onLine fun l => l.report rep).onPlay fun p => { p with lookahead := ahead }
  reportCommit s.line.boundary (fresh.foldl commitCover (demandFault work reported))

/-! ## The output slice (R122 to R133) -/

/-- The clip slice in hand for a record with a WINDOW cover. -/
def clipInHand (s : State) (r : Rec) : Option Clip :=
  match r.coverWindow, s.play.coverOf r.isn with
  | some n, some (.done p e) => some ⟨n, p, e⟩
  | _, _ => none

/-- Why a window cover fell back (R126). -/
def fallbackReason : Option CoverRead → String
  | some (.failed .notReady _) => "NOT-READY"
  | some (.failed .fault _) => "FAULT"
  | some (.failed .cleared _) | some (.cleared _) => "CLEARED"
  | _ => "LATE"

/-- A window cover that has fallen back is noticed when its deciding cut differs from the one noticed last (R126). -/
def noteFallback (work : PeriodWork) (s : State) : State :=
  match work with
  | .emit r _ => match r.coverWindow, clipInHand s r with
    | some n, none =>
      if r.cut = s.play.lastFallback then s
      else raise ⟨"!COVER_FALLBACK", .faults, .degraded,
          [("ISN", .isn r.isn), ("CUT", .num (r.cut.getD 0)), ("WINDOW", .num n),
            ("REASON", .word (fallbackReason (s.play.coverOf r.isn)))]⟩
        (s.onPlay fun p => { p with lastFallback := r.cut })
    | _, _ => s
  | .conceal _ | .again _ | .freeze _ | .underrun => s

/-- What the output slice is rendered from (R123). -/
def sourceOf (s : State) : PeriodWork → Source
  | .emit r e => ⟨false, r.fields, e, clipInHand s r⟩
  | .conceal r => ⟨true, r.fields, .empty, none⟩
  | .again e => ⟨e.concealed, e.rendering.fields, e.essence, e.clip⟩
  | .freeze _ | .underrun => .silent

/-- The phase at which a TONE body begins (R125). -/
def Playout.tonePhaseAt (p : Playout) : Nat := if p.prev.any fun x => allTone x.classes then p.tonePhase else 0

/-- The body of the natural successor when it is READY; a record without a page is READY with a ZERO body (R128, R129). -/
def successorBody (s : State) (n : Rec) : Option Body :=
  let source : Option Source :=
    if n.page.isNone then some ⟨true, n.fields, .empty, none⟩
    else match s.play.phaseOf n.isn with
      | some (.ready _ e) => some ⟨false, n.fields, e, clipInHand s n⟩
      | _ => none
  source.map fun x => x.body s.sliceLength s.force.tone s.play.tonePhaseAt

/-- The lookahead as the plan sees it (R127). The clip slice index of a WINDOW cover is known from its cover read. A
lookahead that holds no buffer slot yet, being in WRITING for one, has read state NONE and none (R126); its channels are
then compared as changed, which plans an EDGE, and its clip slice, not in hand, counts as having audio: the model's choice
(log entry 40). -/
def aheadOf (s : State) (r : Rec) : Ahead :=
  let cover := s.play.coverOf r.isn
  { isn := r.isn
    noAudio := r.page.isNone || (match r.fields.disp, cover with
      | .keep, _ | .mute _, _ => !r.audio
      | .cover (.window _) _, some (.done _ e) => e.audio.isNone
      | _, _ => false)
    classes := aheadClasses r.fields (match cover with
      | some (.reading p) | some (.done p _) | some (.cleared p) => some p
      | some (.failed _ p) => p
      | _ => none) }

/-- The video a slice brings of its own; none when it carries the held video (R131). -/
def ownVideo (s : State) : PeriodWork → Bytes
  | .emit r e => match r.fields.disp with
    | .cover _ true => ((clipInHand s r).map (·.essence.video)).getD []
    | _ => e.video
  | .conceal _ | .again _ | .freeze _ | .underrun => []

/-- The captions a skipped slice carries into the follower: when KEEP and in hand (R132). -/
def skippedCaptions (s : State) (r : Rec) : Bytes :=
  match r.fields.captions, s.play.phaseOf r.isn with
  | true, some (.ready _ e) => e.captions
  | _, _ => []

/-- The captions of a slice before they are cut at 2,048 bytes (R132). -/
def captionsBefore (s : State) (skipped : Option Rec) : PeriodWork → Bytes
  | .emit r e => ((skipped.map (skippedCaptions s)).getD []) ++ (if r.fields.captions then e.captions else [])
  | .conceal _ | .again _ | .freeze _ | .underrun => []

/-- What the last-emitted slot takes from a record that begins (R122). Its condition is the one read at the choice of the
record, before a demand fault makes it DAMAGED: the model's choice (log entry 55). -/
def emittedOf (s : State) : PeriodWork → Option Emitted
  | .emit r e => some ⟨r.isn, r.tc, r.quiet, ⟨r.fields, r.cut⟩, r.cond, e, clipInHand s r, false⟩
  | .conceal r => some ⟨r.isn, r.tc, r.quiet, ⟨r.fields, r.cut⟩, r.cond, .empty, none, true⟩
  | .again _ | .freeze _ | .underrun => s.play.last

/-- COVERED: the fixed rendering of a begun or repeated slice is COVER or MUTE (R133). -/
def coveredOf : PeriodWork → Bool
  | .emit r _ | .conceal r => isCovering r.fields.disp
  | .again e => isCovering e.rendering.fields.disp
  | .freeze _ | .underrun => false
where
  /-- The disposition is COVER or MUTE. -/
  isCovering : Disposition → Bool
    | .cover _ _ | .mute _ => true
    | .keep | .drop | .shed => false

/-- REPEAT: a REPEAT, a freeze and an underrun (R133). -/
def repeatsOf : PeriodWork → Bool
  | .again _ | .freeze _ | .underrun => true
  | .emit _ _ | .conceal _ => false

/-- The output slice of the period and what the next period start needs of it. -/
structure Made where
  slice : Rendered
  info : OutInfo
  body : Body
  captionsCut : Bool

/-- The output slice is rendered and its joins treated (R123 to R133). `ahead` is the lookahead, `next` the natural
successor of a REPEAT or a SKIP, `skipped` the skipped record. -/
def makeSlice (s : State) (kind : PeriodKind) (work : PeriodWork) (ahead next skipped : Option Rec) : Made :=
  let c := s.force.fade
  let level := s.force.tone
  let phase := s.play.tonePhaseAt
  let source := sourceOf s work
  let body := source.body s.sliceLength level phase
  let emitted := emittedOf s work
  let origin : Isn := (emitted.map (·.isn)).getD 4294967295
  let arrival : Arrival :=
    { origin := origin, hidden := source.hidden, body := body, spliced := kind = .repeated || kind = .skip
      successor := next.bind (successorBody s) }
  let join := actualJoin s.play.prev arrival
  let headed := headTreated c level s.play.tonePhase join s.play.prev arrival
  let look := ahead.map (aheadOf s)
  let plan := plannedJoin origin source.hidden body.noAudio body.classes look
  let tails := tailPlan plan body.classes look
  let captions := captionsBefore s skipped work
  let own := ownVideo s work
  { slice :=
      { origin := origin
        tc := emitted.bind (·.tc)
        video := if own = [] then s.play.held.getD [] else own
        audio := treatTail c (tailSample c level tails) headed
        captions := captions.take Config.maxCaptions
        repeatFlag := repeatsOf work
        seam := seamOf join s.play.prev arrival
        covered := coveredOf work
        concealed := source.hidden }
    info :=
      { origin := origin, hidden := source.hidden, noAudio := body.noAudio, classes := body.classes, plan := plan
        treated := tails.map fun f => f ≠ .none }
    body := body
    captionsCut := Config.maxCaptions < captions.length }

/-- The Playout Unit after it has made the slice: the last-emitted slot, the held video, the tone phase, the tail plan,
and the slot of the begun record in EMITTING (R110, R122, R125, R127). -/
def afterSlice (s : State) (work : PeriodWork) (m : Made) : Playout :=
  let p := s.play
  let own := ownVideo s work
  let begun := work.begun.map (·.isn)
  { p with
    last := emittedOf s work
    held := if own = [] then p.held else some own
    prev := some m.info
    tonePhase := if allTone m.body.classes then (p.tonePhaseAt + s.sliceLength) % 48 else p.tonePhase
    slots := p.slots.map fun b => if b.isn.isSome && b.isn = begun then { b with phase := .emitting } else b }

/-- The output slice is made and handed over (R133). -/
def emitSlice (kind : PeriodKind) (work : PeriodWork) (ahead next skipped : Option Rec) (s : State) : State :=
  let s := noteFallback work s
  let m := makeSlice s kind work ahead next skipped
  let s := if m.captionsCut then countCaptionsCut s else s
  handOver m.slice (s.onPlay fun _ => afterSlice s work m)

/-- A record that begins is handed to the Cut Engine (R133, R174). -/
def beginsNow (work : PeriodWork) (s : State) : State :=
  match work.begun with
  | some r => recordBegins r.isn r.tc s
  | none => s

/-- A slot in EMITTING becomes EMPTY (R110, R117). -/
def endEmission (s : State) : State :=
  s.onPlay fun p => { p with slots := p.slots.map fun b => if b.phase = .emitting then .empty else b }

/-- The period-start work of the Playout Unit, for a kind (R117). -/
def playPeriod (kind : PeriodKind) (s : State) : State :=
  let s := endEmission s
  let kind := kindTaken s kind
  let work := workOf s kind
  let due := s.line.due
  let ahead := lookaheadOf s work
  let skipped := skippedOf s kind work
  replan (beginsNow work (emitSlice kind work ahead due skipped (sendReport kind work (noteWork work s))))

end Sys2Proof.Machine
end

