-- ==== Sys2Proof/Machine/Pacing.lean ====
section
/-! DEFINITION. The Pacing Controller (chapter 5): transitions, the slip accumulator, the choice of the period's kind,
and the commands TARGET_GLIDE, TARGET_JUMP, ENGAGE, BYPASS and SHED_ANSWER. -/

namespace Sys2Proof.Machine

/-! ## Transitions and slip (R93, R94) -/

/-- Where the pacing state moves on H, against T and B (R93). -/
def PaceState.move (st : PaceState) (h t b : Nat) : Option PaceState :=
  match st with
  | .idle => none
  | .steady => if h + b < t then some .rebuild else if t + b < h then some .trim else none
  | .rebuild => if t + b < h then some .trim else if t ≤ h then some .steady else none
  | .trim => if h + b < t then some .rebuild else if h ≤ t then some .steady else none

/-- The !PACE of a change of state or mode (R108). -/
def paceNotice (s : State) : Notice :=
  ⟨"!PACE", .pacing, .concealed,
    [("MODE", .word s.pace.mode.text), ("STATE", .word s.pace.st.text), ("H", .num s.line.held),
      ("T", .num s.force.target)]⟩

/-- The pacing state after the transitions of R93, with S at 0 when it has moved. -/
def Pacing.transit (p : Pacing) (h t b : Nat) : Pacing :=
  match p.st.move h t b with
  | none => p
  | some st => { p with st := st, slip := 0 }

/-- The transitions of a period start: one !PACE when the state moves (R93, R108). -/
def transit (s : State) : State :=
  let moved := s.onPace fun p => p.transit s.line.held s.force.target s.force.band
  if moved.pace.st = s.pace.st then moved else raise (paceNotice moved) moved

/-- The accumulation of a period start (R94). -/
def Pacing.accumulate (p : Pacing) (rebuild trim : Nat) : Pacing :=
  match p.st with
  | .rebuild => { p with slip := satAdd Config.slipTop p.slip rebuild }
  | .trim => { p with slip := satAdd Config.slipTop p.slip trim }
  | .idle | .steady => p

/-- The accumulation at the rates in force. -/
def accumulate (s : State) : State := s.onPace fun p => p.accumulate s.force.rebuild s.force.trim

/-! ## The period's kind (R96 to R99) -/

/-- The kind is given to the Playout Unit (R92). -/
def giveKind (kind : PeriodKind) (s : State) : State :=
  playPeriod kind (s.onPace fun p => { p with kind := kind, period := none })

/-- A correction is quiet, or forced (R96, R97). -/
def correctionDue (slip : Nat) (quiet : Bool) : Bool := Config.slipSlice ≤ slip && (quiet || Config.slipForced ≤ slip)

/-- The correction was forced: the slice was not quiet (R96, R97). -/
def forcedNotice (kind : String) (isn : Isn) (quiet : Bool) (s : State) : State :=
  if quiet then s
  else raise ⟨"!FORCED", .pacing, .degraded, [("KIND", .word kind), ("ISN", .isn isn), ("S", .num s.pace.slip)]⟩ s

/-- A correction pays one slice of slip (R94). -/
def paySlip (s : State) : State := s.onPace fun p => { p with slip := p.slip - Config.slipSlice }

/-- A period in REBUILD (R96). -/
def rebuildPeriod (s : State) : State :=
  match s.play.last with
  | some e =>
    if !s.line.repeatInhibit && correctionDue s.pace.slip e.quiet then
      giveKind .repeated (forcedNotice "REPEAT" e.isn e.quiet (countRepeat (paySlip s)))
    else giveKind .normal s
  | none => giveKind .normal s

/-- A period in TRIM (R97). -/
def trimPeriod (s : State) : State :=
  match s.line.due with
  | some d =>
    if 2 ≤ s.line.writtenKept && correctionDue s.pace.slip d.quiet then
      giveKind .skip (forcedNotice "SKIP" d.isn d.quiet (countSkip (paySlip s)))
    else giveKind .normal s
  | none => giveKind .normal s

/-- A period without a shed (R91). -/
def plainPeriod (s : State) : State :=
  match s.pace.st with
  | .rebuild => rebuildPeriod s
  | .trim => trimPeriod s
  | .idle | .steady => giveKind .normal s

/-- The period start sends a shed instruction and waits for its answer (R92). -/
def sendPeriodShed (reason : ShedReason) (isns : List Isn) (s : State) : State :=
  s.onPace fun p =>
    { p with instructions := p.instructions ++ [⟨reason, isns, true⟩], period := some reason }

/-- The follower: the next kept record after the due slice (R92). -/
def HoldLine.follower (l : HoldLine) : Option Rec := l.waiting[1]?

/-- The period start in ENGAGED mode (R92, R99). -/
def engagedPeriod (s : State) : State :=
  let s := accumulate (transit s)
  if s.line.shedDemand then
    match s.line.follower with
    | some f => sendPeriodShed .full [f.isn] s
    | none => giveKind .normal s
  else plainPeriod s

/-- The kept records at or after A. -/
def HoldLine.amendableKept (l : HoldLine) : List Rec := l.records.filter fun r => l.amendable r && r.kept

/-- What a BYPASS sheds: the kept records at or after A, except the newest HELD one (R104, R105). -/
def HoldLine.bypassNames (l : HoldLine) : List Isn :=
  (l.amendableKept.filter fun r => !l.newestHeld.any fun n => n.isn = r.isn).map (·.isn)

/-- The period start in BYPASS (R105). -/
def bypassPeriod (s : State) : State :=
  if s.line.bypassNames.isEmpty then giveKind .normal s else sendPeriodShed .bypass s.line.bypassNames s

/-- The period-start work of the Pacing Controller (R92). -/
def pacePeriod (s : State) : State :=
  match s.pace.mode with
  | .engaged => engagedPeriod s
  | .bypass => bypassPeriod s

/-! ## TARGET (R101, R102) -/

/-- T is set in force and stored (R100). -/
def setTarget (t : Nat) (s : State) : State :=
  (s.onForce fun f => { f with target := t }).onSettings fun x => { x with stored := { x.stored with target := t } }

/-- A value at the nearer end of a range. -/
def clampTo (lo hi n : Nat) : Nat := max lo (min hi n)

/-- OK, or CLAMPED. -/
def okOrClamped (clamped : Bool) : ResultWord := if clamped then .clamped else .ok

/-- A request waits on a shed instruction with a reason (R102, R104). -/
def sendRequestShed (reason : ShedReason) (isns : List Isn) (wait : PaceWait) (s : State) : State :=
  s.onPace fun p => { p with instructions := p.instructions ++ [⟨reason, isns, false⟩], waiting := some wait }

/-- The reply of a JUMP (R102). -/
def answerJump (p : Port) (target asked : Nat) (clamped : Bool) (shed : Nat) (s : State) : State :=
  answer p (if shed < asked then .late else okOrClamped clamped) [("T", .num target), ("SHED", .num shed)] s

/-- TARGET with HOW=JUMP, T set (R102). -/
def takeJump (p : Port) (target : Nat) (clamped : Bool) (s : State) : State :=
  let n := s.line.held - target
  let names := (s.line.amendableKept.take n).map (·.isn)
  if s.pace.mode = .bypass || n = 0 then answerJump p target 0 clamped 0 s
  else if names.isEmpty then answerJump p target n clamped 0 s
  else sendRequestShed .jump names (.jump p target n clamped) s

/-- TARGET (R101, R102). -/
def takeTarget (p : Port) (r : Request) (s : State) : State :=
  match r.num "T" 0 9999999999, r.wordOr "HOW" "GLIDE" with
  | some n, how =>
    let t := clampTo 1 3600 n
    if !r.onlyKeys ["T", "HOW"] then answer p .bad [] s
    else if how = "GLIDE" then answer p (okOrClamped (t ≠ n)) [("T", .num t)] (setTarget t s)
    else if how = "JUMP" then takeJump p t (t ≠ n) (setTarget t s)
    else answer p .bad [] s
  | none, _ => answer p .bad [] s

/-! ## ENGAGE and BYPASS (R104, R106) -/

/-- ENGAGE (R106). -/
def takeEngage (p : Port) (r : Request) (s : State) : State :=
  if !r.keys.isEmpty then answer p .bad [] s
  else match s.pace.mode with
    | .engaged => answer p .ok [("STATE", .word s.pace.st.text)] s
    | .bypass =>
      let engaged := s.onPace fun x =>
        Pacing.transit { x with mode := .engaged, st := .steady, slip := 0 } s.line.held s.force.target s.force.band
      let replied := answer p .ok [("STATE", .word engaged.pace.st.text)] engaged
      raise (paceNotice replied) replied

/-- BYPASS (R104). Its !PACE carries H as it is when the mode changes, before the revoke-all and the shed: the model's
choice (R108, log entry 66). -/
def takeBypass (p : Port) (r : Request) (s : State) : State :=
  if !r.keys.isEmpty then answer p .bad [] s
  else match s.pace.mode with
    | .bypass => answer p .ok [("SHED", .num 0)] s
    | .engaged =>
      let out := s.onPace fun x => { x with mode := .bypass, st := .idle, slip := 0 }
      let revoked := revokeAll (raise (paceNotice out) out)
      let names := revoked.line.bypassNames
      if names.isEmpty then answer p .ok [("SHED", .num 0)] revoked
      else sendRequestShed .bypass names (.bypass p) revoked

/-! ## Taking requests in turn (R107) -/

/-- The controller takes one request. -/
def takePace (j : PaceJob) (s : State) : State :=
  match j.req.word with
  | .target => takeTarget j.port j.req s
  | .engage => takeEngage j.port j.req s
  | .bypass => takeBypass j.port j.req s
  | _ => s

/-- Neither a request nor a period start waits on the Hold Line. -/
def Pacing.free (p : Pacing) : Bool := p.waiting.isNone && p.period.isNone

/-- A request reaches the controller (R92, R107). -/
def paceArrives (j : PaceJob) (s : State) : State :=
  if s.pace.free && s.pace.queue.isEmpty then takePace j s
  else s.onPace fun p => { p with queue := p.queue ++ [j] }

/-- The controller takes its queued requests in turn, until one waits (R107). -/
def takePaceQueue : Nat → State → State
  | 0, s => s
  | k + 1, s =>
    match s.pace.free, s.pace.queue with
    | true, j :: js => takePaceQueue k (takePace j (s.onPace fun p => { p with queue := js }))
    | _, _ => s

/-- The number shed answers a period start: one record shed under FULL makes the period a SHED (R99, R105). -/
def periodAnswered (shed : Nat) (s : State) : State :=
  match s.pace.period with
  | none => s
  | some reason => giveKind (if reason = .full && 1 ≤ shed then .shed else .normal) s

/-- The number shed answers the request that waits (R102, R104). -/
def requestAnswered (shed : Nat) (s : State) : State :=
  let s' := s.onPace fun p => { p with waiting := none }
  match s.pace.waiting with
  | none => s
  | some (.jump p target asked clamped) => answerJump p target asked clamped shed s'
  | some (.bypass p) => answer p .ok [("SHED", .num shed)] s'

/-- The controller takes the number shed that reached it first, and then the requests that waited behind it. -/
def takeShedCount (s : State) : State :=
  match s.pace.answers with
  | [] => s
  | a :: rest =>
    let s := s.onPace fun p => { p with answers := rest }
    let s := if a.forPeriod then periodAnswered a.shed s else requestAnswered a.shed s
    takePaceQueue s.pace.queue.length s

/-- SHED_ANSWER (R102). Without an answer on its way there is nothing to take. -/
def execShedAnswer (s : State) : Host.Outcome State Fault Refusal :=
  .next (if s.runs then takeShedCount s else s)

/-- A period start that still waits for its shed when the next pulse comes is finished first: what is on its way between
the controller and the Hold Line is taken in order. A TARGET, ENGAGE or BYPASS that waited in the queue is taken there,
after the old period's kind and before the new period's work (R92, R107; the model's choice, log entry 15). -/
def finishPeriod : Nat → State → State
  | 0, s => s
  | k + 1, s =>
    if s.pace.period.isNone then s
    else finishPeriod k (if s.pace.answers.isEmpty then takeInstruction s else takeShedCount s)

/-- As many steps as are on their way. -/
def flushPeriod (s : State) : State :=
  finishPeriod (2 * s.pace.instructions.length + s.pace.answers.length) s

/-- A request of one form reaches the controller from a port. -/
def paceRequest (p : Port) (form : Request → Bool) (s : State) : State :=
  takeRouted p form (fun r => paceArrives ⟨p, r⟩) s

/-- TARGET_GLIDE (R101): a TARGET whose HOW= is not JUMP. -/
def execTargetGlide (p : Port) (s : State) : Host.Outcome State Fault Refusal :=
  .next (paceRequest p (fun r => r.word = .target && r.key "HOW" ≠ some "JUMP") s)
/-- TARGET_JUMP (R102). -/
def execTargetJump (p : Port) (s : State) : Host.Outcome State Fault Refusal :=
  .next (paceRequest p (fun r => r.word = .target && r.key "HOW" = some "JUMP") s)
/-- ENGAGE (R106). -/
def execEngage (p : Port) (s : State) : Host.Outcome State Fault Refusal :=
  .next (paceRequest p (fun r => r.word = .engage) s)
/-- BYPASS (R104). -/
def execBypass (p : Port) (s : State) : Host.Outcome State Fault Refusal :=
  .next (paceRequest p (fun r => r.word = .bypass) s)

end Sys2Proof.Machine
end

