-- ==== Sys2Proof/Machine/Timer.lean ====
section
/-! DEFINITION. The Period Timer (section 1.5): the reference pulse and what every block does at it, and the commands
LINE_PULSE, LOSS_WATCH_EXPIRY and FREE_RUN_EXPIRY. -/

namespace Sys2Proof.Machine

/-! ## The reference pulse (R5, R9) -/

/-- The Timer gives a pulse, and the closing mark is due half a nominal period later (R9). -/
def Timer.pulse (t : Timer) (now rate : Nat) : Timer :=
  { t with begun := true, lastPulse := now, pulses := t.pulses + 1, markPending := true, markDue := now + Config.halfPeriod rate }

/-- The values in force at a reference pulse (R195). -/
def valuesInForce (s : State) : State := s.onForce fun f => s.settings.stored.atPulse f

/-- What the blocks do at a reference pulse (R5, R92, R117, R136, R183, R195): the period before is finished first when it
still waits for its shed, and the Output Packetizer counts; the Control Ports take a waiting table and every owner its
waiting values; then the Pacing Controller does its period-start work, and through it the Playout Unit. -/
def referencePulse (s : State) : State :=
  pacePeriod (valuesInForce (((flushPeriod s).onPack Packetizer.pulse).onPorts Ports.tableInForce))

/-! ## The Timer (R7 to R12) -/

/-- The loss watch is restarted from the line pulse taken, the free run is over, and the Timer is LOCKED (R7, R8, R12). -/
def Timer.lock (t : Timer) (now rate : Nat) : Timer :=
  { t with locked := true, watchRuns := true, watchDue := now + Config.watchPeriod rate, freeRuns := false }

/-- The Timer runs free from a pulse given now (R10, R11). -/
def Timer.runFree (t : Timer) (now rate : Nat) : Timer :=
  { t with locked := false, watchRuns := false, freeRuns := true, freeDue := now + Config.nominalPeriod rate }

/-- The house reference is back (R12). -/
def referenceBack : Notice := ⟨"!REFERENCE_BACK", .faults, .concealed, []⟩

/-- The house reference is lost; O= is the Timer's count of pulses after this one (R10). -/
def referenceLost (t : Timer) : Notice := ⟨"!REFERENCE_LOST", .faults, .attention, [("O", .isn t.pulses)]⟩

/-- The Timer gives a pulse now. -/
def timerPulse (s : State) : State := s.onTimer fun t => t.pulse s.now s.force.rate

/-- The Timer locks onto a line pulse now. -/
def timerLock (s : State) : State := s.onTimer fun t => t.lock s.now s.force.rate

/-- A line pulse in HOLDOVER with a period begun (R12). -/
def lineBack (s : State) : State :=
  if s.timer.markPending then raise referenceBack (timerLock s)
  else referencePulse (raise referenceBack (timerPulse (timerLock s)))

/-- LINE_PULSE (R7, R8, R12). -/
def execLinePulse (s : State) : Host.Outcome State Fault Refusal :=
  .next <|
    if !s.runs then s
    else if s.timer.locked then
      if s.timer.markPending then s else referencePulse (timerPulse (timerLock s))
    else if s.timer.begun then lineBack s
    else referencePulse (timerPulse (timerLock s))

/-- LOSS_WATCH_EXPIRY (R7, R10). The loss watch is longer than the half period, so no mark is then pending; an expiry of a
watch that does not run, or before the mark, is none (log entry 17). -/
def execLossWatchExpiry (s : State) : Host.Outcome State Fault Refusal :=
  .next <|
    if !s.runs || !s.timer.watchRuns || s.timer.markPending then s
    else
      let s := s.atTime s.timer.watchDue
      let s := timerPulse (s.onTimer fun t => t.runFree s.now s.force.rate)
      referencePulse (raise (referenceLost s.timer) s)

/-- FREE_RUN_EXPIRY (R11). -/
def execFreeRunExpiry (s : State) : Host.Outcome State Fault Refusal :=
  .next <|
    if !s.runs || !s.timer.freeRuns || s.timer.markPending then s
    else
      let s := s.atTime s.timer.freeDue
      referencePulse (timerPulse (s.onTimer fun t => t.runFree s.now s.force.rate))

end Sys2Proof.Machine
end

