-- ==== Sys2Proof/Machine/Dispatch.lean ====
section
/-! DEFINITION. One arm per command: the call of its meaning. -/

namespace Sys2Proof.Machine

/-- The effect of a command on everything but the queue of commands. -/
def exec (i : Instr) (s : State) : Host.Outcome State Fault Refusal :=
  match i with
  | .powerOn => Sys2Proof.Machine.execPowerOn s
  | .resetLineAsserted => Sys2Proof.Machine.execResetLineAsserted s
  | .resetLineReleased => Sys2Proof.Machine.execResetLineReleased s
  | .linePulse => Sys2Proof.Machine.execLinePulse s
  | .lossWatchExpiry => Sys2Proof.Machine.execLossWatchExpiry s
  | .freeRunExpiry => Sys2Proof.Machine.execFreeRunExpiry s
  | .closingMark => Sys2Proof.Machine.execClosingMark s
  | .mediaInPacket packet => Sys2Proof.Machine.execMediaInPacket packet s
  | .packetSent => Sys2Proof.Machine.execPacketSent s
  | .serialCharacter port char => Sys2Proof.Machine.execSerialCharacter port char s
  | .datagram address content => Sys2Proof.Machine.execDatagram address content s
  | .replySent port => Sys2Proof.Machine.execReplySent port s
  | .storeCompletion grant report => Sys2Proof.Machine.execStoreCompletion grant report s
  | .accessTimeout => Sys2Proof.Machine.execAccessTimeout s
  | .dispositionUpdate => Sys2Proof.Machine.execDispositionUpdate s
  | .updateAnswer => Sys2Proof.Machine.execUpdateAnswer s
  | .shedInstruction => Sys2Proof.Machine.execShedInstruction s
  | .shedAnswer => Sys2Proof.Machine.execShedAnswer s
  | .saveComplete readsBack => Sys2Proof.Machine.execSaveComplete readsBack s
  | .saveTimeout => Sys2Proof.Machine.execSaveTimeout s
  | .dump port => Sys2Proof.Machine.execDump port s
  | .markIn port => Sys2Proof.Machine.execMarkIn port s
  | .markOut port => Sys2Proof.Machine.execMarkOut port s
  | .cut port => Sys2Proof.Machine.execCut port s
  | .amend port => Sys2Proof.Machine.execAmend port s
  | .revoke port => Sys2Proof.Machine.execRevoke port s
  | .cuts port => Sys2Proof.Machine.execCuts port s
  | .watch port => Sys2Proof.Machine.execWatch port s
  | .watchReport port => Sys2Proof.Machine.execWatchReport port s
  | .unwatch port => Sys2Proof.Machine.execUnwatch port s
  | .targetGlide port => Sys2Proof.Machine.execTargetGlide port s
  | .targetJump port => Sys2Proof.Machine.execTargetJump port s
  | .engage port => Sys2Proof.Machine.execEngage port s
  | .bypass port => Sys2Proof.Machine.execBypass port s
  | .slice port => Sys2Proof.Machine.execSlice port s
  | .status port => Sys2Proof.Machine.execStatus port s
  | .window port => Sys2Proof.Machine.execWindow port s
  | .windowReport port => Sys2Proof.Machine.execWindowReport port s
  | .load port => Sys2Proof.Machine.execLoad port s
  | .clear port => Sys2Proof.Machine.execClear port s
  | .counters port => Sys2Proof.Machine.execCounters port s
  | .countersClear port => Sys2Proof.Machine.execCountersClear port s
  | .portReset port => Sys2Proof.Machine.execPortReset port s
  | .param port => Sys2Proof.Machine.execParam port s
  | .set port => Sys2Proof.Machine.execSet port s
  | .setStation port => Sys2Proof.Machine.execSetStation port s
  | .save port => Sys2Proof.Machine.execSave port s
  | .profile port => Sys2Proof.Machine.execProfile port s
  | .restart port => Sys2Proof.Machine.execRestart port s
  | .powerLoss => Sys2Proof.Machine.execPowerLoss s

end Sys2Proof.Machine
end

