-- ==== Sys2Proof/Safety.lean ====
section
/-! DEFINITION. The terms in which claims about the part are made: the blocks of the state and what it is to leave them
alone, and the invariants of a part in good order. -/

namespace Sys2Proof.Machine

/-! ## Blocks -/

/-- A component of the state. -/
inductive Block
  | pending | now | phase | resetLine | draws | force | timer | ingest | lane | line | cuts | pace | play | pack | store
  | ports | settings | counters
  deriving DecidableEq, Repr

/-- What a component holds. -/
def Block.Of : Block → Type
  | .pending => List Instr
  | .now => Nat
  | .phase => Phase
  | .resetLine => Bool
  | .draws => Nat
  | .force => Params
  | .timer => Timer
  | .ingest => Ingest
  | .lane => Lane
  | .line => HoldLine
  | .cuts => CutEngine
  | .pace => Pacing
  | .play => Playout
  | .pack => Packetizer
  | .store => Store
  | .ports => Ports
  | .settings => Settings
  | .counters => Counters

/-- A component of a state. -/
def State.block (s : State) : (b : Block) → b.Of
  | .pending => s.pending
  | .now => s.now
  | .phase => s.phase
  | .resetLine => s.resetLine
  | .draws => s.draws
  | .force => s.force
  | .timer => s.timer
  | .ingest => s.ingest
  | .lane => s.lane
  | .line => s.line
  | .cuts => s.cuts
  | .pace => s.pace
  | .play => s.play
  | .pack => s.pack
  | .store => s.store
  | .ports => s.ports
  | .settings => s.settings
  | .counters => s.counters

/-- Two states agree outside the components named. -/
def Agrees (touched : List Block) (s t : State) : Prop := ∀ b, touched.contains b = false → t.block b = s.block b

/-- What the work of a reference pulse may touch besides the Period Timer (R5). -/
def pulseTouches : List Block :=
  [.force, .line, .cuts, .pace, .play, .pack, .store, .ports, .settings, .counters]

/-- What the end of a store access may touch (R154, R156). -/
def accessTouches : List Block := [.draws, .ingest, .lane, .line, .play, .store, .ports, .counters]

/-- What the Cut Engine's requests may touch: its own state, the replies and notices, and the count of notices
dropped. -/
def cutTouches : List Block := [.cuts, .ports, .counters]

/-- What a command may touch; everything else it leaves as it is. -/
def touches : Instr → List Block
  | .powerOn =>
    [.phase, .force, .timer, .ingest, .lane, .line, .cuts, .pace, .play, .pack, .store, .ports, .settings, .counters]
  | .resetLineAsserted =>
    [.phase, .resetLine, .force, .timer, .ingest, .lane, .line, .cuts, .pace, .play, .pack, .store, .ports, .settings,
      .counters]
  | .resetLineReleased => [.phase, .resetLine, .timer, .ports, .counters]
  | .linePulse => .timer :: pulseTouches
  | .lossWatchExpiry | .freeRunExpiry => .now :: .timer :: pulseTouches
  | .closingMark => [.now, .timer, .ingest, .lane, .line, .cuts, .store, .ports, .counters]
  | .mediaInPacket _ => [.ingest, .lane, .ports, .counters]
  | .packetSent => [.pack]
  | .serialCharacter _ _ | .datagram _ _ => [.ports]
  | .replySent _ =>
    [.phase, .force, .timer, .ingest, .lane, .line, .cuts, .pace, .play, .pack, .store, .ports, .settings, .counters]
  | .storeCompletion _ _ => accessTouches
  | .accessTimeout => .now :: accessTouches
  | .dispositionUpdate => [.line, .cuts, .play, .store]
  | .updateAnswer => cutTouches
  | .shedInstruction => [.line, .pace, .play, .store, .ports, .counters]
  | .shedAnswer => pulseTouches
  | .saveComplete _ => [.settings, .ports, .counters]
  | .saveTimeout => [.now, .settings, .ports, .counters]
  | .dump _ | .markIn _ | .markOut _ | .cut _ | .amend _ | .revoke _ | .cuts _ | .watch _ | .watchReport _
  | .unwatch _ => cutTouches
  | .targetGlide _ | .targetJump _ => [.pace, .force, .settings, .ports]
  | .engage _ => [.pace, .ports, .counters]
  | .bypass _ => [.pace, .cuts, .ports, .counters]
  | .slice _ | .status _ | .windowReport _ | .counters _ | .portReset _ | .param _ | .restart _ => [.ports]
  | .window _ | .clear _ => [.store, .play, .ports]
  | .load _ => [.store, .play, .lane, .ports]
  | .countersClear _ => [.ports, .counters]
  | .set _ | .save _ => [.settings, .ports]
  | .setStation _ => [.ports]
  | .profile _ => [.settings, .store, .play, .ports]
  | .powerLoss => [.phase, .settings]

/-! ## Requests and replies -/

/-- The part runs, and a port has routed a request to its owner, which has not been reached yet (R184). -/
def Routed (s : State) (p : Port) (r : Request) : Prop :=
  s.phase = .running ∧ (s.ports.get p).current = some ⟨r, false⟩

/-- A request reaches a Cut Engine that has nothing waiting and no answer pending, so that it is taken at once (R69). -/
def CutEngineFree (s : State) : Prop := s.cuts.awaiting = none ∧ s.cuts.queue = [] ∧ s.cuts.update = none

/-- How many ISNs lie from `first` through `last`. -/
def through (first last : Isn) : Nat := if isAfter first last then 0 else (last - first).toNat + 1

/-- The Pacing Controller takes a request at once: nothing waits on the Hold Line and no request waits (R92, R107). -/
def PacingFree (s : State) : Prop := s.pace.waiting = none ∧ s.pace.period = none ∧ s.pace.queue = []

/-- A reply as its line will be sent (R186). -/
def Reply.line (r : Reply) : Sending := ⟨r.text, r.address.toList, r.effect⟩

/-- The line a port is sending, and the replies that wait behind it, in the order in which they leave (R186). -/
def PortState.outgoing (x : PortState) : List Sending := x.sending.toList ++ x.replies.map Reply.line

/-- On a port, a reply to a request has joined what the port is to send, right behind what waited before (R186). -/
def RepliedWith (effect : ReplyEffect) (p : Port) (r : Request) (result : ResultWord) (fields : List Field)
    (s t : State) : Prop :=
  ∃ later, (t.ports.get p).outgoing = (s.ports.get p).outgoing
    ++ Reply.line ⟨result, some r.tag, fields, effect, false, r.address⟩ :: later

/-- A reply that has no further effect. -/
def Replied (p : Port) (r : Request) (result : ResultWord) (fields : List Field) (s t : State) : Prop :=
  RepliedWith .nothing p r result fields s t

/-- The other ports are as they were. -/
def OtherPortsKept (p : Port) (s t : State) : Prop := ∀ q, q ≠ p → t.ports.get q = s.ports.get q

/-- A request is answered, and nothing but its port and the bindings of stations whose lines it takes next changes. -/
def OnlyReplied (p : Port) (r : Request) (result : ResultWord) (fields : List Field) (s t : State) : Prop :=
  Replied p r result fields s t ∧ Agrees [.ports] s t ∧ OtherPortsKept p s t

/-- The copy of a notice that a port's queue takes: on Port N with the addresses of its audience (R188), one for each
station, also where two share one, which is the model's choice (log entry 60). -/
def noticeCopy (s : State) (p : Port) (n : Notice) : NoticeLine :=
  ⟨n, if p = .n then (s.ports.audience p n.group).filterMap (·.address) else []⟩

/-- A notice has been told: a port with an audience for its group, a line being sent and room in its notice queue has
its copy, right behind what waited before (R188, R189). Where one step raises notices of several blocks, R188 leaves their
order open, and that this one comes first is the model's choice (log entry 13). The copy has one address for each station,
also a shared one (log entry 60). -/
def Told (n : Notice) (s t : State) : Prop :=
  ∀ p, s.ports.audience p n.group ≠ [] → (s.ports.get p).sending ≠ none →
    (s.ports.get p).notices.length < Config.noticeQueue →
      ∃ later, (t.ports.get p).notices = (s.ports.get p).notices ++ noticeCopy s p n :: later

/-! ## Accesses to the stacked DRAM -/

/-- The access at the store that a report under a grant number ends: the one left from before a restart, or else the one
in flight (R153, R161). -/
def endedBy (s : State) (grant : Option Nat) : Option Access :=
  (s.store.outstanding.or s.store.flight).filter fun a => grant.all fun g => a.grant = g

/-- An address lies where an access writes: the kinds it carries at their offsets in its page or block (R148), and of a
block the descriptor too. -/
def StoreJob.writesAt (job : StoreJob) (a : Nat) : Prop :=
  match job with
  | .ingestWrite page _ e => kinds (pageBase page) e
  | .loadWrite _ block _ e =>
    kinds (blockBase block) e ∨ (blockBase block + 2097088 ≤ a ∧ a < blockBase block + 2097152)
  | .fetch _ _ _ _ _ _ _ _ | .coverRead _ _ _ _ => False
where
  kinds (base : Nat) (e : Essence) : Prop :=
    (base ≤ a ∧ a < base + (e.audio.getD []).length)
      ∨ (base + 122880 ≤ a ∧ a < base + 122880 + e.captions.length)
      ∨ (base + 124928 ≤ a ∧ a < base + 124928 + e.video.length)

/-! ## Invariants -/

/-- What the tests of R27 to R29 leave in a slot: ranges that hold bytes, do not overlap, lie below their kind total and have
all their bytes, of captions those below 2,048; none before the kind has its total; and audio of the one size that is not
rejected. -/
def SlotSound (x : StagingSlot) (length : Nat) : Prop :=
  (∀ k, ((x.kindBuf k).ranges.Pairwise fun g h => g.off + g.len ≤ h.off ∨ h.off + h.len ≤ g.off)
    ∧ ((x.kindBuf k).total = none → (x.kindBuf k).ranges = [])
    ∧ ∀ g ∈ (x.kindBuf k).ranges, 1 ≤ g.len ∧ (∀ n, (x.kindBuf k).total = some n → g.off + g.len ≤ n)
      ∧ g.bytes.length = if k = .caption then min g.len (2048 - g.off) else g.len)
  ∧ ∀ n, x.audio.total = some n → n = length * 64

/-- The staging slots of the program path and of the lane hold what the tests of R27 to R29 leave. -/
def SlotsOk (s : State) : Prop := ∀ x ∈ s.ingest.slots ++ s.lane.slots, SlotSound x s.sliceLength

/-- The stacked DRAM is in its canonical form. -/
def MemoryOk (s : State) : Prop := s.store.mem.wf = true

/-- ISNs run on from `a`, one by one, to just before `n` (R42). -/
def runsOn : Isn → List Rec → Isn → Prop
  | a, [], n => a = n
  | a, r :: rs, n => r.isn = a ∧ runsOn (a + 1) rs n

/-- The records of the line stand in ISN order, each one more than the one before, up to the next ISN (R4, R42). -/
def IsnsOk (s : State) : Prop := ∃ a, runsOn a s.line.records s.line.nextIsn

/-- Every page is in the free pool or held by one record, and only once (R46). -/
def PagesOk (s : State) : Prop :=
  (s.line.freePool ++ s.line.records.filterMap (·.page)).Perm (List.range Config.pages)

/-- The mode and the pacing state go together, S stays within its range, and it is 0 in IDLE and STEADY (R91, R94). -/
def PaceOk (s : State) : Prop :=
  (s.pace.mode = .bypass ↔ s.pace.st = .idle) ∧ s.pace.slip ≤ Config.slipTop
    ∧ (s.pace.st = .idle ∨ s.pace.st = .steady → s.pace.slip = 0)

/-- The store has one access at most: none granted while one begun before a restart is outstanding (R153, R161). -/
def OneAccess (s : State) : Prop := s.store.flight = none ∨ s.store.outstanding = none

/-- The requests that wait in the Arbiter's queues, and the one in flight (R150, R153). -/
def Store.requests (st : Store) : List StoreReq :=
  st.demand ++ st.ingest ++ st.cover ++ st.load ++ st.fetch ++ (st.flight.map (·.req)).toList

/-- Every request in the Arbiter has its own place in the order of arrival (R151). -/
def ArrivalsOk (s : State) : Prop :=
  (s.store.requests.map (·.arrival)).Nodup ∧ ∀ q ∈ s.store.requests, q.arrival ≤ s.store.arrivals

/-- A port's queues keep within their bounds (R181, R189). -/
def PortState.bounded (x : PortState) : Prop :=
  x.queue.length ≤ Config.requestQueue ∧ x.notices.length ≤ Config.noticeQueue

/-- Every port's queues keep within their bounds. -/
def PortsOk (s : State) : Prop := ∀ p, (s.ports.get p).bounded

/-- A free transmitter has nothing waiting (R186, R189). -/
def PortState.served (x : PortState) : Prop := x.sending = none → x.replies = [] ∧ x.notices = []

/-- No port keeps a line waiting while its transmitter is free. -/
def TransmittersOk (s : State) : Prop := ∀ p, (s.ports.get p).served

/-- The records before A are the committed ones; a record that emits is committed, an ended emission is an emission, and
one record at most is in its emission; A lies within the line or at its end; and no record stands outside the slots (R41,
R44, R50, R51, R53). -/
def LineOk (s : State) : Prop :=
  IsnsOk s ∧ s.line.count ≤ Config.recordSlots ∧ fwd s.line.boundary s.line.nextIsn ≤ s.line.count
    ∧ (∀ r ∈ s.line.records, (r.committed = !s.line.amendable r) ∧ (r.life = .emitting → r.committed = true)
        ∧ (r.ended = true → r.life = .emitting))
    ∧ s.line.emitting.length ≤ 1

/-- There are four buffer slots, and no two are bound to one record (R110). -/
def PlayOk (s : State) : Prop := s.play.slots.length = 4 ∧ (s.play.slots.filterMap (·.isn)).Nodup

/-- The send queue holds at most the slice being sent and the one that waits behind it (R146). -/
def SendQueueOk (s : State) : Prop := s.pack.queue.length ≤ 2

/-- There are eight windows, every definition lies within the cover area, and no two defined windows share a block
(R162). -/
def WindowsOk (s : State) : Prop :=
  s.store.windows.length = 8
    ∧ (∀ w ∈ s.store.windows, ∀ d, w.defn = some d → d.fits = true)
    ∧ s.store.windows.Pairwise fun v w => ∀ d e, v.defn = some d → w.defn = some e → d.overlaps e = false

/-- Every parameter holds a value within the range that the table of R195 gives it, row by row. Every speech mask and either
value of auto-engage is one. -/
def Params.admitted (p : Params) : Prop :=
  p.rate ∈ [25, 30, 50, 60] ∧ p.stream ≤ 15 ∧ (1 ≤ p.target ∧ p.target ≤ 3600) ∧ p.band ≤ 50
    ∧ (1 ≤ p.rebuild ∧ p.rebuild ≤ 409) ∧ (1 ≤ p.trim ∧ p.trim ≤ 409) ∧ p.fade ∈ [16, 32, 64, 128, 256]
    ∧ p.quiet ≤ 8388607 ∧ p.react ≤ 100 ∧ p.postRoll ≤ 25 ∧ p.dumpDepth ≤ 3600 ∧ p.dumpTail ≤ 25
    ∧ (25 ≤ p.openLimit ∧ p.openLimit ≤ 3600) ∧ (1 ≤ p.autoLevel ∧ p.autoLevel ≤ 15)
    ∧ (1 ≤ p.prefetch ∧ p.prefetch ≤ 3) ∧ (1024 ≤ p.payload ∧ p.payload ≤ 8192 ∧ p.payload % 64 = 0)
    ∧ p.outStream ≤ 15 ∧ p.initSeq ≤ 65535 ∧ p.tone ≤ 8388607

/-- The stored parameters and those in force hold values that R195 admits. -/
def ParamsOk (s : State) : Prop := s.settings.stored.admitted ∧ s.force.admitted

/-- The cut list holds 32 cuts at most, under distinct ids of 1 to 255; the next id is one of those; and there are four
watches (R64, R65, R170). -/
def CutListOk (s : State) : Prop :=
  s.cuts.cuts.length ≤ Config.maxCuts ∧ (s.cuts.cuts.map (·.id)).Nodup
    ∧ (∀ c ∈ s.cuts.cuts, 1 ≤ c.id ∧ c.id ≤ 255) ∧ 1 ≤ s.cuts.nextId ∧ s.cuts.nextId ≤ 255
    ∧ s.cuts.watches.length = 4

end Sys2Proof.Machine
end

