-- ==== Sys2Proof/Certificates/Slice0/Obligations.lean ====
section
/-! DEFINITION. The statements about the part, chapter by chapter of the manual. -/

open Sys2Proof Sys2Proof.Machine

/-! ## The queue of commands, frames, the stacked DRAM -/

/-- A step takes the command at the front of the queue, with the rest of the queue behind it. -/
def Obligations.StepTakesTheFrontCommand : Prop :=
  ∀ (c : Instr) (rest : List Instr) (s : State),
    step (s.withPending (c :: rest)) = exec c (s.withPending rest)

/-- A command touches no block but those of its list, which the manual's chapters give it: in every state, whatever
else the command does. Every command answers a next state in every state, but for a closing mark given while all record
slots are occupied, which is the model's stop (log entry 6). -/
def Obligations.CommandsTouchOnlyTheirBlocks : Prop :=
  (∀ (c : Instr) (s t : State), exec c s = .next t → Agrees (touches c) s t)
  ∧ ∀ (c : Instr) (s : State), (c = .closingMark → s.line.count < 4096) → ∃ t, exec c s = .next t

/-- Only the end of a store access writes the stacked DRAM, and only where that access writes (R148, R149); every other
byte reads as before. Power-on starts the memory anew. -/
def Obligations.OnlyEndingAccessesWriteTheMemory : Prop :=
  ∀ (c : Instr) (s t : State) (a : Nat), c ≠ .powerOn → exec c s = .next t →
    (∀ job,
      (∃ x, endedBy s none = some x ∧ c = .accessTimeout ∧ x.req.job = job)
        ∨ (∃ x g r, endedBy s (some g) = some x ∧ c = .storeCompletion g r ∧ x.req.job = job) →
      ¬ StoreJob.writesAt job a) →
    t.store.mem.read a = s.store.mem.read a

/-- An ingest write that ends in FAULT, whatever the reason, at the record that is written to its page (R25, R45, R156). A
fourth RETRY was not carried out, and leaves the memory as it was (R155). -/
def IngestWriteFaultDamagesItsRecord : Prop :=
  ∀ (s : State) (a : Access) (page slot : Nat) (e : Essence) (c : Instr) (r : Rec) (reason : String), LineOk s →
    s.phase = .running → s.store.outstanding = none → s.store.flight = some a → a.req.job = .ingestWrite page slot e →
    (c = .accessTimeout ∧ reason = "TIMEOUT"
      ∨ c = .storeCompletion a.grant .fault ∧ reason = "UNCORRECTABLE"
      ∨ (∃ f, c = .storeCompletion a.grant (.retry f)) ∧ 3 ≤ a.req.retries ∧ reason = "RETRY_EXHAUSTED") →
    (s.line.records.filter fun x => decide (x.life = .writing) && decide (x.page = some page)) = [r] →
    ∃ t returned, exec c s = .next t
      ∧ t.line.freePool = s.line.freePool ++ page :: returned
      ∧ t.line.held = s.line.held
      ∧ (∀ x ∈ t.line.records, if x.isn = r.isn then
          x = { r with
            cond := .damaged, page := none, life := if r.committed then .committed else .held, noticed := true }
        else x ∈ s.line.records)
      ∧ ((r.committed = false ∨ (r.kept = true ∧ r.skipped = false)) → ∃ x ∈ t.line.records, x.isn = r.isn)
      ∧ (∀ x, t.ingest.slots[slot]? = some x → x.st = .free)
      ∧ t.counters.faults = min 4294967295 (s.counters.faults + 1) ∧ t.counters.retries = s.counters.retries
      ∧ (r.noticed = false → Told ⟨"!STORE", .faults, .degraded,
          [("ISN", .isn r.isn), ("CLASS", .word "INGEST"), ("OUTCOME", .word "FAULT"), ("REASON", .word reason)]⟩ s t)
      ∧ (reason = "RETRY_EXHAUSTED" → t.store.mem = s.store.mem)

/-- An ingest write reported DONE leaves in its page, byte by byte, the kinds the slice carries at their offsets: audio
at 0, captions at 122,880, video at 124,928 (R148, R149); its record leaves WRITING, its staging slot is FREE, and no
access granted until then is in flight any more: one that is has a later grant number. One that ends in FAULT frees its
staging slot too; its record leaves WRITING and is DAMAGED, without its page, which goes to the tail of the free pool before
any that a sweep returns; H, its disposition and its edit count stay; it is counted, and !STORE tells it with its reason
unless the record's error was noticed before (R25, R45, R156, R160). After a fourth RETRY the memory is as it was (R155). -/
def Obligations.IngestWriteDoneFillsItsPage : Prop :=
  IngestWriteFaultDamagesItsRecord ∧
  ∀ (s : State) (a : Access) (page slot units : Nat) (e : Essence),
    s.phase = .running → s.store.outstanding = none → s.store.flight = some a →
    a.req.job = .ingestWrite page slot e →
    (e.audio.getD []).length ≤ 122880 → e.captions.length ≤ 2048 →
    ∃ t, exec (.storeCompletion a.grant (.done units)) s = .next t
      ∧ (∀ i, i < (e.audio.getD []).length → some (t.store.mem.read (pageBase page + i)) = (e.audio.getD [])[i]?)
      ∧ (∀ i, i < e.captions.length →
          some (t.store.mem.read (pageBase page + 122880 + i)) = e.captions[i]?)
      ∧ (∀ i, i < e.video.length → some (t.store.mem.read (pageBase page + 124928 + i)) = e.video[i]?)
      ∧ (∀ r ∈ t.line.records, ¬ (r.life = .writing ∧ r.page = some page))
      ∧ (∀ x, t.ingest.slots[slot]? = some x → x.st = .free)
      ∧ (∀ b, t.store.flight = some b → s.store.grants < b.grant)
      ∧ t.counters.corrected = min 4294967295 (s.counters.corrected + units)
      ∧ t.counters.faults = s.counters.faults

/-! ## Chapter 1: the Period Timer -/

/-- What a reference pulse brings when no period start still waits for its shed (R5, R133, R183, R195): O rises by one;
the stored parameters come into force, but for the slice rate, the program stream id, the initial sequence and
auto-engage; a waiting station table comes into force; and one slice is handed to the Output Packetizer, unless the
period start now waits for a shed. -/
def PulseBrings (s t : State) : Prop :=
  t.pack.out = s.pack.out + 1
    ∧ t.settings = s.settings
    ∧ t.force =
        { s.settings.stored with
          rate := s.force.rate, stream := s.force.stream, initSeq := s.force.initSeq, autoEngage := s.force.autoEngage }
    ∧ t.ports.waiting = none
    ∧ (s.ports.waiting = none → t.ports.table = s.ports.table)
    ∧ t.pack.handed = (if t.pace.period = none then s.pack.handed + 1 else s.pack.handed)

/-- The Period Timer right after a pulse given at a moment with the slice rate in force: a period has begun, and the
closing mark is pending at half a nominal period (R9). -/
def Pulsed (t : Timer) (now rate : Nat) : Timer :=
  { t with
    begun := true, lastPulse := now, pulses := t.pulses + 1, markPending := true, markDue := now + 1500 / rate }

/-- A line pulse taken with no closing mark pending is accepted, in LOCKED, in HOLDOVER and before the first period
alike: the Timer gives a reference pulse at once, is LOCKED, restarts the loss watch from this pulse (1.5 nominal
periods) and no longer runs free; in HOLDOVER, with a period begun, !REFERENCE_BACK is raised (R7, R8, R12). That this
notice comes before those that other blocks raise at the same pulse is the model's choice, since R188 leaves their order
open (log entry 13). -/
def Obligations.LinePulseWithoutMarkIsAccepted : Prop :=
  ∀ s : State, s.phase = .running → s.timer.markPending = false → s.pace.period = none →
    ∃ t, exec .linePulse s = .next t
      ∧ t.now = s.now
      ∧ t.timer =
          { Pulsed s.timer s.now s.force.rate with
            locked := true, watchRuns := true, watchDue := s.now + 4500 / s.force.rate, freeRuns := false }
      ∧ PulseBrings s t
      ∧ (s.timer.locked = false → s.timer.begun = true → Told ⟨"!REFERENCE_BACK", .faults, .concealed, []⟩ s t)

/-- A line pulse taken in LOCKED with the closing mark pending is ignored; one taken in HOLDOVER gives no reference pulse
and leaves the mark where it is, but the Timer is LOCKED, with the loss watch restarted from it, and !REFERENCE_BACK is
raised (R8, R12). -/
def Obligations.LinePulseWithMarkPendingGivesNoPulse : Prop :=
  ∀ s : State, s.phase = .running → s.timer.markPending = true → s.timer.begun = true →
    if s.timer.locked then exec .linePulse s = .next s
    else ∃ t, exec .linePulse s = .next t
      ∧ t.timer =
          { s.timer with
            locked := true, watchRuns := true, watchDue := s.now + 4500 / s.force.rate, freeRuns := false }
      ∧ Agrees [.timer, .ports, .counters] s t
      ∧ Told ⟨"!REFERENCE_BACK", .faults, .concealed, []⟩ s t

/-- The expiry of the running loss watch puts the Timer into HOLDOVER, raises !REFERENCE_LOST with the count of pulses,
this one included, and gives a reference pulse at the moment of expiry; each free-run expiry gives the next one; and either
starts the free-run expiry one nominal period later (R7, R10, R11). That the model's clock then stands at the due time at
least, and that the notice comes before those that other blocks raise at the same pulse, whose order R188 leaves open, are
the model's choices (log entries 1 and 13). -/
def Obligations.ExpiriesGivePulsesInHoldover : Prop :=
  ∀ s : State, s.phase = .running → s.timer.markPending = false → s.pace.period = none →
    let after (t : State) (due : Nat) : Prop :=
      t.now = max s.now due
        ∧ t.timer =
            { Pulsed s.timer t.now s.force.rate with
              locked := false, watchRuns := false, freeRuns := true, freeDue := t.now + 3000 / s.force.rate }
        ∧ PulseBrings s t
    (s.timer.watchRuns = true → ∃ t, exec .lossWatchExpiry s = .next t ∧ after t s.timer.watchDue
      ∧ Told ⟨"!REFERENCE_LOST", .faults, .attention, [("O", .num (s.timer.pulses + 1).toNat)]⟩ s t)
    ∧ (s.timer.freeRuns = true → ∃ t, exec .freeRunExpiry s = .next t ∧ after t s.timer.freeDue)

/-- O rises only at a reference pulse, by one at each, and the next ISN only at a closing mark, by one at each; a reset
sets either to 0, and no command changes them in another way (R4, R5, R43, R63). -/
def Obligations.CountsRiseOnlyAtTheirEvents : Prop :=
  ∀ (c : Instr) (s t : State), exec c s = .next t →
    let resets : Prop := c = .powerOn ∨ c = .resetLineAsserted ∨ ∃ p, c = .replySent p
    (t.pack.out = s.pack.out
      ∨ (t.pack.out = s.pack.out + 1 ∧ (c = .linePulse ∨ c = .lossWatchExpiry ∨ c = .freeRunExpiry))
      ∨ (t.pack.out = 0 ∧ resets))
    ∧ (t.line.nextIsn = s.line.nextIsn
      ∨ (t.line.nextIsn = s.line.nextIsn + 1 ∧ c = .closingMark)
      ∨ (t.line.nextIsn = 0 ∧ resets))

/-! ## Chapters 1, 2 and 7: packets -/

/-- The header checksum of R17: one addition carries bit 15 back into bit 0; the Output Packetizer writes the complement of
the sum of the words, with the checksum word as zero, into bytes 28 and 29 of every header and so of every packet it
sends, and the sum over all fifteen words is then 0xFFFF; Media In counts a header of another sum a checksum failure, and
no other; the words of a header never sum to 0, since its mark is not zero, and words that sum to 0xFFFF take the checksum
0. The manual's own example folds to 0xBA43. -/
def Obligations.HeaderChecksumFollowsItsRule : Prop :=
  (∀ a w : Nat, a < 65536 → w < 65536 →
    addCarry a w < 65536 ∧ addCarry a w = (a + w) % 65536 + (a + w) / 65536)
  ∧ (∀ (o : OutSlice) (kind : Kind) (seq : BitVec 16) (offset length total : Nat),
      let h := outputHeader o kind seq offset length total
      h.length = 30
        ∧ beValue (h.drop 28) = 65535 - onesSum (wordsOf (h.take 28 ++ [0, 0]))
        ∧ onesSum (wordsOf h) = 0xFFFF)
  ∧ (∀ (o : OutSlice) (next : BitVec 16) (k : Nat) (packet : Bytes), o.packet next k = some packet →
      onesSum (wordsOf (packet.take 30)) = 0xFFFF)
  ∧ (∀ packet : Bytes, 30 ≤ packet.length → beValue (packet.take 2) = 0xD516 →
      (checkHeader packet = .checksum ↔ onesSum (wordsOf (packet.take 30)) ≠ 0xFFFF)
        ∧ onesSum (wordsOf (packet.take 30)) ≠ 0)
  ∧ (∀ header : Bytes, onesSum (wordsOf header) = 0xFFFF → checksumOf header = 0)
  ∧ onesSum [0x4A31, 0x8002, 0xF00F] = 0xBA43 ∧ 65535 - 0xBA43 = 0x45BC

/-- What the Output Packetizer sends, Media In reads: for fields within their ranges, the header check passes the packet
and finds the stream id, kind, slice timestamp, payload offset, kind total, timecode and payload that were put into it; of
a slice without a timecode it finds the four bytes 0xFF (R13, R14, R15, R16, R144). -/
def Obligations.MediaInReadsWhatMediaOutSends : Prop :=
  ∀ (o : OutSlice) (kind : Kind) (seq : BitVec 16) (offset total : Nat) (payload : Bytes) (tc : Timecode),
    o.stream < 16 → offset < 4294967296 → total < 4294967296 → 1 ≤ payload.length → payload.length ≤ 8192 →
    ((o.slice.tc = some tc ∧ tc.hours < 256 ∧ tc.minutes < 256 ∧ tc.seconds < 256 ∧ tc.frames < 256)
      ∨ (o.slice.tc = none ∧ tc = ⟨255, 255, 255, 255⟩)) →
    checkHeader (outputHeader o kind seq offset payload.length total ++ payload) =
      .passed ⟨o.stream, kind, o.ts, offset, total, tc, payload⟩

/-- The header check of R14, in its order: too short or without the format mark, malformed; a checksum that does not
verify, a checksum failure; an unknown kind or a wrong payload length, malformed. A packet rejected so is counted once
and does nothing else, and any other passes, with the stream id, kind, slice timestamp, payload offset, kind total and
timecode of its header and the bytes that follow it, and is handed to the Ingest Unit (R15, R18). A program packet that
passes and lies late or misaligned by its forward distance from E is discarded, is counted under its own counter, and
sets the consecutive-early count to 0 (R20, R21). -/
def Obligations.HeaderChecksAreMadeInOrder : Prop :=
  ∀ (s : State) (packet : Bytes), s.phase = .running →
    let byte (i : Nat) : Nat := (packet.getD i 0).toNat
    let word (i : Nat) : Nat := 256 * byte i + byte (i + 1)
    let long (i : Nat) : Nat := 65536 * word i + word (i + 2)
    let up (n : Nat) : Nat := min 4294967295 (n + 1)
    let unmarked : Prop := packet.length < 30 ∨ word 0 ≠ 0xD516
    let unverified : Prop := onesSum (wordsOf (packet.take 30)) ≠ 0xFFFF
    let misformed : Prop :=
      (byte 2 % 16 ≠ 1 ∧ byte 2 % 16 ≠ 2 ∧ byte 2 % 16 ≠ 3)
        ∨ word 6 < 1 ∨ 8192 < word 6 ∨ word 6 ≠ packet.length - 30
    let malformed : Prop :=
      exec (.mediaInPacket packet) s =
        .next { s with counters := { s.counters with malformed := up s.counters.malformed } }
    (unmarked → malformed)
    ∧ (¬ unmarked → unverified →
      exec (.mediaInPacket packet) s =
        .next { s with counters := { s.counters with checksum := up s.counters.checksum } })
    ∧ (¬ unmarked → ¬ unverified → misformed → malformed)
    ∧ (¬ unmarked → ¬ unverified → ¬ misformed →
      ∃ p, checkHeader packet = .passed p ∧ p.stream = byte 2 / 16 ∧ p.kind.number = byte 2 % 16
        ∧ p.ts = BitVec.ofNat 32 (long 8) ∧ p.offset = long 12 ∧ p.total = long 16
        ∧ p.tc = ⟨byte 24, byte 25, byte 26, byte 27⟩ ∧ p.payload = packet.drop 30 ∧ exec (.mediaInPacket packet) s = .next (sortPacket p s))
    ∧ (∀ (p : Packet) (e : U32), checkHeader packet = .passed p → p.stream = s.force.stream →
      s.ingest.expected = some e → 0 < s.sliceLength →
      let d := (p.ts - e).toNat
      let calm := { s.ingest with early := 0 }
      (2147483648 ≤ d → s.sliceLength ≤ 1073741824 →
        exec (.mediaInPacket packet) s =
          .next { s with ingest := calm, counters := { s.counters with late := up s.counters.late } })
      ∧ (1 ≤ d → d ≤ 2 * s.sliceLength - 1 → d ≠ s.sliceLength →
        exec (.mediaInPacket packet) s =
          .next { s with ingest := calm, counters := { s.counters with malformed := up s.counters.malformed } }))

/-- A program packet is placed at E or at E + L, at an open position of the window: those before it under the same timestamp
are draining ones (R20). -/
def PlacedAt (s : State) (p : Packet) (e : U32) (before after : List Position) (pos : Position) : Prop :=
  p.stream = s.force.stream ∧ s.ingest.expected = some e ∧ 0 < s.sliceLength ∧ s.sliceLength ≤ 1073741824
    ∧ (p.ts = e ∨ p.ts = e + BitVec.ofNat 32 s.sliceLength) ∧ s.ingest.window = before ++ pos :: after
    ∧ ∀ y ∈ before, y.ts = p.ts → y.draining = true

/-- A packet placed at a position without a slot (R20, R24): it binds a FREE slot, which becomes GATHERING, and goes on
to the tests; without one the position is refused; and at a refused position a packet is discarded and not counted. -/
def PositionsBindOrRefuse : Prop :=
  ∀ (s : State) (packet : Bytes) (p : Packet) (e : U32) (refused : Bool) (before after : List Position),
    s.phase = .running → checkHeader packet = .passed p → PlacedAt s p e before after ⟨p.ts, false, none, refused⟩ →
    let calm := { s.ingest with early := 0 }
    let window (slot : Option Nat) (refused : Bool) := before ++ ⟨p.ts, false, slot, refused⟩ :: after
    (refused = true → exec (.mediaInPacket packet) s = .next { s with ingest := calm })
    ∧ (refused = false → (∀ y ∈ s.ingest.slots, y.st ≠ .free) →
      exec (.mediaInPacket packet) s = .next { s with ingest := { calm with window := window none true } })
    ∧ (∀ (j : Nat) (y : StagingSlot), refused = false → s.ingest.slots[j]? = some y → y.st = .free →
      (∀ (i : Nat) (z : StagingSlot), i < j → s.ingest.slots[i]? = some z → z.st ≠ .free) →
      ∃ t, exec (.mediaInPacket packet) s = .next t
        ∧ t.ingest.window = window (some j) false
        ∧ exec (.mediaInPacket packet) { s with ingest := { s.ingest with
            window := window (some j) false
            slots := s.ingest.slots.set j { StagingSlot.empty with st := .gathering } } } = .next t)

/-- The essence tests at a position whose slot gathers (R27, R28, R29), in their order. -/
def SlotsTestTheirPackets : Prop :=
  ∀ (s : State) (packet : Bytes) (p : Packet) (e : U32) (j : Nat) (x : StagingSlot) (before after : List Position),
    s.phase = .running → checkHeader packet = .passed p → PlacedAt s p e before after ⟨p.ts, false, some j, false⟩ →
    s.ingest.slots[j]? = some x →
    let b := x.kindBuf p.kind
    let up (n : Nat) : Nat := min 4294967295 (n + 1)
    let answers (y : StagingSlot) (c : Counters) : Prop :=
      exec (.mediaInPacket packet) s = .next { s with
        ingest := { s.ingest with early := 0, slots := s.ingest.slots.set j y }, counters := c }
    let malformed (y : StagingSlot) : Prop := answers y { s.counters with malformed := up s.counters.malformed }
    let outside : Prop := p.total < p.offset + p.payload.length
    let tooBig : Prop := (p.kind = .video ∧ 1966080 < p.total) ∨ (p.kind = .audio ∧ p.total ≠ s.sliceLength * 64)
    let stored : Range :=
      ⟨p.offset, p.payload.length, if p.kind = .caption then p.payload.take (2048 - p.offset) else p.payload⟩
    let accepted (started : KindBuf) : Prop :=
      answers
        { x.putKind p.kind { started with ranges := b.ranges ++ [stored] } with
          tc := x.tc.or (if p.tc.inRange s.force.rate then some p.tc else none) }
        { s.counters with accepted := up s.counters.accepted }
    (b.rejected = true ∨ outside → malformed x)
    ∧ (b.rejected = false → ¬ outside → b.total = none → tooBig → malformed (x.putKind p.kind { b with rejected := true }))
    ∧ (b.rejected = false → ¬ outside → b.total = none → ¬ tooBig → b.ranges = [] →
        accepted { b with total := some p.total, truncated := decide (p.kind = .caption ∧ 2048 < p.total) })
    ∧ (∀ n, b.rejected = false → ¬ outside → b.total = some n →
      let same : Prop := ∃ g ∈ b.ranges, g.off = p.offset
      let overlaps : Prop := ∃ g ∈ b.ranges, g.off < p.offset + p.payload.length ∧ p.offset < g.off + g.len
      (n ≠ p.total → malformed x)
      ∧ (n = p.total → same → answers x { s.counters with duplicate := up s.counters.duplicate })
      ∧ (n = p.total → ¬ same → overlaps → malformed x)
      ∧ (n = p.total → ¬ same → ¬ overlaps → accepted b))

/-- The lane's packets in WAITING and in RUNNING (R37, R38). -/
def LanePacketsAreSorted : Prop :=
  ∀ (s : State) (packet : Bytes) (p : Packet), s.phase = .running → checkHeader packet = .passed p →
    p.stream ≠ s.force.stream → p.stream = s.lane.stream → 0 < s.sliceLength →
    let d := (p.ts - s.lane.expected).toNat
    let up (n : Nat) : Nat := min 4294967295 (n + 1)
    let first := p.ts + BitVec.ofNat 32 s.sliceLength
    let only (c : Counters) : Prop := exec (.mediaInPacket packet) s = .next { s with counters := c }
    (s.lane.st = .waiting →
      exec (.mediaInPacket packet) s = .next { s with lane := { s.lane with
        st := .running, leadIn := some p.ts, leadInHeld := true, expected := first
        positions := [⟨first, false, none, false⟩] } })
    ∧ (s.lane.st = .running → s.lane.leadIn = some p.ts → exec (.mediaInPacket packet) s = .next s)
    ∧ (s.lane.st = .running → s.lane.leadIn ≠ some p.ts → s.sliceLength ≤ 1073741824 →
      (2147483648 ≤ d → only { s.counters with late := up s.counters.late })
      ∧ (2 * s.sliceLength ≤ d → d ≤ 2147483647 → only { s.counters with early := up s.counters.early })
      ∧ (1 ≤ d → d ≤ 2 * s.sliceLength - 1 → d ≠ s.sliceLength →
          only { s.counters with malformed := up s.counters.malformed })
      ∧ (d = 0 → s.lane.positions.head? = some ⟨p.ts, false, none, false⟩ → s.lane.slots = List.replicate 2 .empty →
          p.offset + p.payload.length ≤ p.total → p.kind.rejects s.sliceLength p.total = false → p.kind ≠ .caption →
          ∃ t x, exec (.mediaInPacket packet) s = .next t ∧ Agrees [.lane, .counters] s t
            ∧ t.lane = { s.lane with
                positions := ⟨p.ts, false, some 0, false⟩ :: s.lane.positions.tail, slots := [x, .empty] }
            ∧ x.st = .gathering ∧ (x.kindBuf p.kind).ranges = [⟨p.offset, p.payload.length, p.payload⟩]
            ∧ t.counters = { s.counters with accepted := up s.counters.accepted }))

/-- The lane at a closing mark in RUNNING (R37, R39). -/
def LaneClosesItsSlices : Prop :=
  ∀ s : State, s.phase = .running → s.timer.markPending = true → s.line.count < 4096 → s.lane.st = .running →
    ArrivalsOk s →
    let after (ts : U32) : Position := ⟨ts + BitVec.ofNat 32 s.sliceLength, false, none, false⟩
    (∀ x, s.lane.leadInHeld = true → s.lane.positions = [x] →
      ∃ t, exec .closingMark s = .next t
        ∧ t.lane = { s.lane with leadInHeld := false, positions := [x, after x.ts] }
        ∧ ∀ q ∈ t.store.load, ∃ q' ∈ s.store.load, q'.job = q.job)
    ∧ (∀ x y, s.lane.leadInHeld = false → s.lane.positions = [x, y] → (∀ j, x.slot = some j → y.slot ≠ some j) →
      let closed := closePosition x s.lane.slots
      let block := s.lane.base + s.lane.clip
      let goesOn : Prop := s.lane.clip + 1 < s.lane.count
      ∃ t, exec .closingMark s = .next t
        ∧ (goesOn → t.lane.st = .running ∧ t.lane.clip = s.lane.clip + 1 ∧ t.lane.expected = y.ts
            ∧ t.lane.positions = [y, after y.ts] ∧ t.store.windows = s.store.windows)
        ∧ (closed.cond = .intact → (∀ z, s.lane.slots[x.slot.getD 0]? = some z → x.slot ≠ none →
            t.lane.faultMark = s.lane.faultMark
            ∧ (¬ goesOn → t.lane.st = .finishing ∧ t.lane.positions = [] ∧ t.store.windows = s.store.windows)
            ∧ t.lane.slots[x.slot.getD 0]? = some { StagingSlot.empty with st := .writing, kept := z.keeps, place := block }
            ∧ ((∃ q ∈ t.store.load, q.job = .loadWrite s.lane.window block (x.slot.getD 0) z.keeps)
                ∨ ∃ b, t.store.flight = some b ∧ b.req.job = .loadWrite s.lane.window block (x.slot.getD 0) z.keeps)))
        ∧ (closed.cond ≠ .intact → goesOn → t.lane.faultMark = true
            ∧ (∀ j z, x.slot = some j → t.lane.slots[j]? = some z → z = .empty))
        ∧ (closed.cond ≠ .intact → ¬ goesOn → (∀ z ∈ s.lane.slots, z.st ≠ .writing) → t.lane.st = .idle
            ∧ t.store.windows = s.store.windows.set (s.lane.window - 1)
                { s.store.window s.lane.window with st := .faulty, clips := 0 }))

/-- The last write of a FINISHING lane has ended (R40, R166). -/
def LaneEndsItsLoad : Prop :=
  ∀ (s : State) (a : Access) (window block slot : Nat) (e : Essence) (report : StoreReport), s.phase = .running →
    s.store.outstanding = none → s.store.flight = some a → a.req.job = .loadWrite window block slot e →
    s.lane.st = .finishing → (∀ j x, s.lane.slots[j]? = some x → j ≠ slot → x.st ≠ .writing) →
    (∃ units, report = .done units) ∨ report = .fault →
    let n := s.lane.window
    let ready : Prop := report ≠ .fault ∧ s.lane.faultMark = false
    ∃ t, exec (.storeCompletion a.grant report) s = .next t
      ∧ t.lane.st = .idle ∧ (∀ x ∈ t.lane.slots, x.st = .free)
      ∧ (ready → t.store.windows = s.store.windows.set (n - 1)
            { s.store.window n with st := .ready, clips := s.lane.count }
          ∧ Told ⟨"!WINDOW", .setup, .concealed,
              [("W", .num n), ("STATE", .word "READY"), ("CLIPS", .num s.lane.count)]⟩ s t)
      ∧ (¬ ready → t.store.windows = s.store.windows.set (n - 1) { s.store.window n with st := .faulty, clips := 0 }
          ∧ Told ⟨"!WINDOW", .faults, .attention, [("W", .num n), ("STATE", .word "FAULTY")]⟩ s t)

/-- What a packet that passes its header check does on the program path while E is unset: it sets E to its slice
timestamp, fills the window with the open positions E and E + L, binds a FREE slot and, when its essence fits, is
accepted there (R19, R20, R24, R27). Later, a packet at E or E + L whose position has no slot binds the first FREE one
and goes on to the tests; with none FREE the position is refused, and packets at a refused position are discarded
uncounted (R20, R24). That the slot is the first is the model's choice (log entry 53). A packet for a slot that gathers
is malformed when its kind is rejected or it passes its own kind total; it starts its kind, or rejects it for its size;
it is malformed with another kind total, a duplicate at an offset stored before, malformed where it overlaps, and else
accepted, captions below 2,048 bytes only (R27, R28, R29); that a caption packet at or beyond 2,048, of which nothing is
stored, makes a later one a duplicate or an overlap as well is the model's reading (log entry 32). On the lane that a
LOAD has opened, the first packet of its stream fixes the lead-in and does no more; later ones for the lead-in are
discarded; and late, early and misaligned ones are counted and discarded (R37, R38). The first closing mark takes the
lead-in off; each later one closes the oldest position: an INTACT slice goes to the store as a cover-load write to block
base + p and its slot is WRITING, any other sets the fault mark and frees its slot; the lane goes on while clips are
wanted (R37, R39). When the last write of a FINISHING lane has ended, the lane is IDLE and the window READY with its
clips, or FAULTY, which !WINDOW tells (R40, R166). -/
def Obligations.FirstProgramPacketOpensTheWindow : Prop :=
  (∀ (s : State) (packet : Bytes) (p : Packet), s.phase = .running →
    checkHeader packet = .passed p → p.stream = s.force.stream → s.ingest.expected = none →
    s.ingest.slots = List.replicate 3 .empty →
    p.offset + p.payload.length ≤ p.total → p.kind.rejects s.sliceLength p.total = false → p.kind ≠ .caption →
    ∃ t, exec (.mediaInPacket packet) s = .next t
      ∧ t.ingest.expected = some p.ts
      ∧ t.ingest.window =
          [⟨p.ts, false, some 0, false⟩, ⟨p.ts + BitVec.ofNat 32 s.sliceLength, false, none, false⟩]
      ∧ (∃ x, t.ingest.slots = [x, .empty, .empty] ∧ x.st = .gathering
          ∧ (x.kindBuf p.kind).total = some p.total
          ∧ (x.kindBuf p.kind).ranges = [⟨p.offset, p.payload.length, p.payload⟩]
          ∧ x.tc = (if p.tc.inRange s.force.rate then some p.tc else none))
      ∧ t.ingest.early = 0
      ∧ t.counters = { s.counters with accepted := min 4294967295 (s.counters.accepted + 1) }
      ∧ Agrees [.ingest, .counters] s t)
  ∧ PositionsBindOrRefuse ∧ SlotsTestTheirPackets ∧ LanePacketsAreSorted ∧ LaneClosesItsSlices ∧ LaneEndsItsLoad

/-- The fourth early packet in a row, with no position draining, resyncs: it is discarded and counted, the open positions
drain, two open positions at its timestamp and one slice later follow, E is its timestamp, and !RESYNC is raised
(R21, R22). -/
def Obligations.FourthEarlyPacketResyncs : Prop :=
  ∀ (s : State) (packet : Bytes) (p : Packet) (e : U32), s.phase = .running →
    checkHeader packet = .passed p → p.stream = s.force.stream → s.ingest.expected = some e →
    2 * s.sliceLength ≤ (p.ts - e).toNat → (p.ts - e).toNat ≤ 2147483647 → 0 < s.sliceLength →
    s.ingest.early = 3 → (∀ x ∈ s.ingest.window, x.draining = false) →
    ∃ t, exec (.mediaInPacket packet) s = .next t
      ∧ t.ingest =
          { s.ingest with
            expected := some p.ts
            early := 0
            window := s.ingest.window.map (fun x => { x with draining := true })
              ++ [⟨p.ts, false, none, false⟩, ⟨p.ts + BitVec.ofNat 32 s.sliceLength, false, none, false⟩] }
      ∧ t.counters.early = min 4294967295 (s.counters.early + 1)
      ∧ Told ⟨"!RESYNC", .ingest, .degraded, [("OLD", .isn e), ("NEW", .isn p.ts)]⟩ s t
      ∧ Agrees [.ingest, .ports, .counters] s t

/-- A kind as !PARTIAL lists it (R35). -/
def kindWord : Kind → String
  | .video => "VIDEO"
  | .audio => "AUDIO"
  | .caption => "CAPTION"

/-- What a list of kinds reads as (R35). -/
def kindWords (ks : List Kind) : Val := .word (if ks = [] then "NONE" else String.intercalate "," (ks.map kindWord))

/-- A byte of a kind has been received (R26). -/
def received (b : KindBuf) (i : Nat) : Prop := ∃ g ∈ b.ranges, g.off ≤ i ∧ i < g.off + g.len

/-- A kind has started in a slot (R26). -/
def startedIn (x : StagingSlot) (k : Kind) : Prop := (x.kindBuf k).total ≠ none ∨ (x.kindBuf k).rejected = true

/-- Every byte of a kind below its kind total has been received, of captions every one below 2,048 (R31). -/
def wholeIn (x : StagingSlot) (k : Kind) : Prop :=
  ∀ n, (x.kindBuf k).total = some n → ∀ i, i < (if k = .caption then min n 2048 else n) → received (x.kindBuf k) i

/-- The byte received at an offset of a kind, if one was. -/
def byteIn (b : KindBuf) (i : Nat) : Option Byte :=
  (b.ranges.find? fun g => g.off ≤ i && i < g.off + g.len).bind fun g => g.bytes[i - g.off]?

/-- The sample of a slot's kept audio, by the number of its container: 0 unless all four bytes were received and the audio
was not rejected (R31, R32). -/
def sampleIn (x : StagingSlot) (n : Nat) : Int :=
  let byte := byteIn x.audio
  match x.audio.rejected, byte (4 * n), byte (4 * n + 1), byte (4 * n + 2), byte (4 * n + 3) with
  | false, some _, some b1, some b2, some b3 => sampleOf b1 b2 b3
  | _, _, _, _, _ => 0

/-- The condition, the quiet mark, the counts and the notice of the slice that a closing mark closes (R31, R32, R33, R35,
R47). The notice is told for a Cut Engine without cuts and watches and an IDLE lane, which raise none of their own. -/
def ClosingJudgesTheSlice : Prop :=
  ∀ s : State, s.phase = .running → s.timer.markPending = true → s.line.count < 4096 →
    let pos : Option Position := s.ingest.window.head?
    let slot : Option StagingSlot := pos.bind fun x => x.slot.bind fun j => s.ingest.slots[j]?
    (∀ x, slot = some x → SlotSound x s.sliceLength) →
    let refused : Prop := ∃ x, pos = some x ∧ x.refused = true
    let isn : Field := ("ISN", .num s.line.nextIsn.toNat)
    let up (n : Nat) : Nat := min 4294967295 (n + 1)
    ∃ (t : State) (r : Rec) (missing rejected : List Kind), exec .closingMark s = .next t
      ∧ t.line.records = s.line.records ++ [r]
      ∧ (refused → r.cond = .loss ∧ r.loss = some .stagingFull)
      ∧ (¬ refused → (∀ x, slot = some x → ∀ k, ¬ startedIn x k) → r.cond = .loss ∧ r.loss = some .missing)
      ∧ (∀ x, ¬ refused → slot = some x → (∃ k, startedIn x k) →
          let sound : Prop := ∀ k, startedIn x k → wholeIn x k ∧ (x.kindBuf k).rejected = false
          (s.line.freePool = [] → r.cond = .loss ∧ r.loss = some .noPage)
          ∧ (s.line.freePool ≠ [] → r.loss = none ∧ (sound → r.cond = .intact) ∧ (¬ sound → r.cond = .partialSlice)
            ∧ (r.quiet = true ↔ 0 < s.force.quiet ∧ ∀ n, n < 16 * s.sliceLength →
                s.force.speech.getLsbD (n % 16) = true → (sampleIn x n).natAbs < s.force.quiet)))
      ∧ missing.Sublist [.video, .audio, .caption] ∧ rejected.Sublist [.video, .audio, .caption]
      ∧ (∀ x, slot = some x → ∀ k,
          (k ∈ missing ↔ startedIn x k ∧ (x.kindBuf k).rejected = false ∧ ¬ wholeIn x k)
          ∧ (k ∈ rejected ↔ (x.kindBuf k).rejected = true))
      ∧ t.ingest.last = some (r.cond, r.loss)
      ∧ t.ingest.lossRun = (match r.cond, r.loss with
        | .loss, some .noPage => s.ingest.lossRun
        | .loss, _ => up s.ingest.lossRun
        | _, _ => 0)
      ∧ t.counters.partials = (if r.cond = .partialSlice then up s.counters.partials else s.counters.partials)
      ∧ t.counters.losses = (if r.cond = .loss then up s.counters.losses else s.counters.losses)
      ∧ (let notice : Option Notice := match r.cond, r.loss with
          | .loss, some .noPage =>
            if (s.line.records.getLast?).bind (·.loss) = some .noPage then none
            else some ⟨"!OVERRUN", .ingest, .degraded, [isn, ("RECORDS", .num (s.line.records.length + 1))]⟩
          | .loss, reason =>
            if s.ingest.last = some (.loss, reason) then none
            else some ⟨"!LOSS", .ingest, .degraded,
              [isn, ("REASON", .word (if reason = some .missing then "MISSING" else "STAGING_FULL"))]⟩
          | cond, _ =>
            if s.ingest.lossRun ≠ 0 then some ⟨"!INGEST_BACK", .ingest, .degraded, [isn, ("LOST", .num s.ingest.lossRun)]⟩
            else if cond = .partialSlice then
              some ⟨"!PARTIAL", .ingest, .degraded,
                [isn, ("MISSING", kindWords missing), ("REJECTED", kindWords rejected)]⟩
            else none
        s.cuts.cuts = [] → (∀ w ∈ s.cuts.watches, w = none) → s.lane.st = .idle →
          t.ports = match notice with
            | some n => (raise n s).ports
            | none => s.ports)

/-- The essence that R31 keeps of a slot: a whole kind as it is, with its bytes one by one, captions below 2,048; started
audio that is not whole with every container not wholly received at 0; other kinds not whole, rejected or not started,
absent. -/
def KeptOf (x : StagingSlot) (e : Essence) : Prop :=
  let kept (k : Kind) (n : Nat) : Prop :=
    (x.kindBuf k).rejected = false ∧ (x.kindBuf k).total = some n ∧ wholeIn x k
  let carries (k : Kind) (bytes : Bytes) (n : Nat) : Prop :=
    bytes.length = n ∧ ∀ i, i < n → bytes[i]? = byteIn (x.kindBuf k) i
  (∀ n, kept .video n → carries .video e.video n) ∧ ((∀ n, ¬ kept .video n) → e.video = [])
  ∧ (∀ n, kept .caption n → carries .caption e.captions (min n 2048)) ∧ ((∀ n, ¬ kept .caption n) → e.captions = [])
  ∧ (x.audio.rejected = true ∨ x.audio.total = none → e.audio = none)
  ∧ ∀ n, x.audio.rejected = false → x.audio.total = some n →
    ∃ a, e.audio = some a ∧ a.length = n ∧ ∀ c, 4 * c + 3 < n →
      let all : Prop := ∀ i, i < 4 → received x.audio (4 * c + i)
      (all → ∀ i, i < 4 → a[4 * c + i]? = byteIn x.audio (4 * c + i))
      ∧ (¬ all → ∀ i, i < 4 → a[4 * c + i]? = some 0)

/-- What becomes of the slot of the slice that a closing mark closes (R25, R29, R31, R33). -/
def ClosingHandsTheSliceOn : Prop :=
  ∀ (s : State) (pos : Position) (rest : List Position) (j : Nat) (x : StagingSlot), s.phase = .running →
    s.timer.markPending = true → s.line.count < 4096 → ArrivalsOk s → s.ingest.window = pos :: rest →
    pos.slot = some j → s.ingest.slots[j]? = some x → SlotSound x s.sliceLength →
    let lost : Prop := pos.refused = true ∨ (∀ k, ¬ startedIn x k) ∨ s.line.freePool = []
    ∃ (t : State) (r : Rec), exec .closingMark s = .next t ∧ t.line.records = s.line.records ++ [r]
      ∧ (∀ i, i ≠ j → t.ingest.slots[i]? = s.ingest.slots[i]?)
      ∧ (lost → t.ingest.slots[j]? = some .empty ∧ t.counters.captionsCut = s.counters.captionsCut
          ∧ ∀ q ∈ t.store.requests, ∀ page slot e, q.job = .ingestWrite page slot e →
            ∃ q' ∈ s.store.requests, q'.job = q.job)
      ∧ (¬ lost → ∃ (e : Essence) (page : Nat), KeptOf x e ∧ s.line.freePool.head? = some page
          ∧ r.page = some page ∧ r.life = .writing ∧ r.ts = some pos.ts ∧ r.tc = x.tc
          ∧ r.videoBytes = e.video.length ∧ r.audio = e.audio.isSome ∧ r.captBytes = e.captions.length
          ∧ t.ingest.slots[j]? = some { StagingSlot.empty with st := .writing, kept := e, place := page }
          ∧ ((∃ q ∈ t.store.ingest, q.job = .ingestWrite page j e)
              ∨ ∃ a, t.store.flight = some a ∧ a.req.job = .ingestWrite page j e)
          ∧ t.counters.captionsCut =
              if e.captions ≠ [] ∧ x.caption.truncated = true then min 4294967295 (s.counters.captionsCut + 1)
              else s.counters.captionsCut)

/-- A closing mark that is pending makes exactly one record, at the back, under the next ISN, with clear marks and edit
count 0; a page it holds comes from the head of the free pool, and only a LOSS record has none; the records before it are
untouched, and the mark is no longer pending (R4, R9, R30, R33, R43, R46). In the steady case, of two open positions, the
older closes, the newer becomes the oldest and gives E, and one position is appended a slice after it; where a draining
position closes, nothing is appended and E stays (R30). An INTACT or PARTIAL slice with a page leaves its slot WRITING
and an ingest write for the page, queued or granted, of the essence that R31 keeps: whole kinds as they are, audio with
its missing containers at 0, other kinds dropped; its record takes the timestamp, the timecode and the kept sizes, and
captions truncated rises where cut captions are kept. A LOSS slice frees its slot and sends no write (R25, R29, R33). The
slice is LOSS when its position was refused, when no kind started, or for want of a page; INTACT when every started kind
is whole and none rejected; else PARTIAL (R31, R33, R47). It is quiet when no sample of its kept audio over the speech
mask reaches the threshold (R32); that this holds for no slice under a threshold of 0, whatever the mask, is the model's
choice (log entry 62). !OVERRUN, !LOSS, !INGEST_BACK and !PARTIAL tell it, one at most, and runs are told once (R35,
R47); that a rejected kind is listed under REJECTED= alone, that the kinds are joined by commas in the order VIDEO,
AUDIO, CAPTION, and which record is the predecessor, are the model's choices (log entries 64, 50 and 45). -/
def Obligations.ClosingMarkMakesOneRecord : Prop :=
  ClosingJudgesTheSlice ∧ ClosingHandsTheSliceOn ∧
  ∀ s : State, s.phase = .running → s.timer.markPending = true → s.line.count < 4096 →
    ∃ t r, exec .closingMark s = .next t
      ∧ t.line.records = s.line.records ++ [r]
      ∧ r.isn = s.line.nextIsn ∧ t.line.nextIsn = s.line.nextIsn + 1 ∧ t.cuts.head = s.line.nextIsn
      ∧ r.committed = false ∧ r.ended = false ∧ r.skipped = false ∧ r.edit = 0
      ∧ (r.page = none ↔ r.cond = .loss)
      ∧ r.life = (if r.page = none then .held else .writing)
      ∧ s.line.freePool = r.page.toList ++ t.line.freePool
      ∧ (r.cond = .loss → r.ts = none ∧ r.tc = none ∧ r.quiet = true ∧ r.videoBytes = 0 ∧ r.audio = false
          ∧ r.captBytes = 0)
      ∧ (s.ingest.window = [] → r.loss = some .missing ∧ t.ingest.window = [])
      ∧ (∀ x y, s.ingest.window = [x, y] → x.draining = false → y.draining = false →
          t.ingest.window = [y, ⟨y.ts + BitVec.ofNat 32 s.sliceLength, false, none, false⟩]
            ∧ t.ingest.expected = some y.ts)
      ∧ (∀ x rest, s.ingest.window = x :: rest → x.draining = true →
          t.ingest.window = rest ∧ t.ingest.expected = s.ingest.expected)
      ∧ t.timer = { s.timer with markPending := false }

/-- A pending closing mark with all 4,096 record slots occupied stops with a fault of its own name: the manual keeps the
line at 4,089 records (R42, R60) and gives no effect beyond. The stop is the model's (log entry 6). -/
def Obligations.ClosingMarkWithoutSlotStops : Prop :=
  ∀ s : State, s.phase = .running → s.timer.markPending = true → 4096 ≤ s.line.count →
    exec .closingMark s = .fault .noRecordSlot

/-! ## Chapter 3: the Hold Line -/

/-- The release sweep lets go exactly the longest run at the front of records that have ended emission, or that are
committed, passed or skipped and not in WRITING; their pages return to the tail of the free pool in their order, and H
does not move (R46, R52). -/
def Obligations.SweepReleasesTheFront : Prop :=
  ∀ l : HoldLine, ∃ gone : List Rec,
    let free (r : Rec) : Prop :=
      (r.life = .emitting ∧ r.ended = true)
        ∨ (r.committed = true ∧ (r.fields.disp = .drop ∨ r.fields.disp = .shed ∨ r.skipped = true) ∧ r.life ≠ .writing)
    l.records = gone ++ l.sweep.records
      ∧ (∀ r ∈ gone, free r)
      ∧ (∀ r, l.sweep.records.head? = some r → ¬ free r)
      ∧ l.sweep.freePool = l.freePool ++ gone.filterMap (·.page)
      ∧ l.sweep.held = l.held
      ∧ l.sweep.nextIsn = l.nextIsn ∧ l.sweep.commitPoint = l.commitPoint

/-- A disposition update that waits is taken whole: a record that is amendable and not SHED takes the fields and the
deciding cut the update gives its ISN, its edit count rising when a disposition field changes; every other record stays
as it is; and the Hold Line answers with the number of ISNs named that lie before A and with the first that does not
(R54). -/
def Obligations.DispositionUpdateIsTakenWhole : Prop :=
  ∀ (s : State) (u : Update), s.phase = .running → s.cuts.update = some u →
    u.count ≤ 4096 → (fwd u.first s.line.boundary ≤ 4096 ∨ fwd s.line.boundary u.first ≤ 4096) →
    let named := (List.range u.count).map fun i => u.first + BitVec.ofNat 32 i
    ∃ t, exec .dispositionUpdate s = .next t
      ∧ t.line.records = s.line.records.map (fun r =>
          match u.items.find? (fun a => a.isn = r.isn) with
          | some a =>
            if s.line.amendable r = true ∧ r.fields.disp ≠ .shed then
              { r with fields := a.fields, cut := a.cut, edit := if a.fields = r.fields then r.edit else r.edit + 1 }
            else r
          | none => r)
      ∧ t.cuts = { s.cuts with
          update := none
          answer := some
            ⟨(named.filter fun i => isAfter s.line.boundary i).length,
              named.find? fun i => !isAfter s.line.boundary i⟩ }
      ∧ t.line.freePool = s.line.freePool ∧ t.line.commitPoint = s.line.commitPoint
      ∧ Agrees [.line, .cuts, .play, .store] s t

/-- A shed instruction that waits is taken whole: each named record that is amendable and kept becomes SHED with captions
REMOVE and no deciding cut, its edit count rising by one; the others stay; the number shed goes back to the Pacing
Controller and onto the sheds counter, and with at least one record shed, !SHED names the oldest of them, the number and
the reason (R56). -/
def Obligations.ShedInstructionIsTakenWhole : Prop :=
  ∀ (s : State) (i : ShedInstruction) (rest : List ShedInstruction), s.phase = .running →
    s.pace.instructions = i :: rest →
    let sheds (r : Rec) : Bool := i.isns.contains r.isn && s.line.amendable r && r.kept
    let gone := s.line.records.filter sheds
    ∃ t, exec .shedInstruction s = .next t
      ∧ t.line = { s.line with
          records := s.line.records.map fun r =>
            if sheds r then { r with fields := ⟨.shed, false⟩, cut := none, edit := r.edit + 1 } else r }
      ∧ t.pace = { s.pace with instructions := rest, answers := s.pace.answers ++ [⟨gone.length, i.forPeriod⟩] }
      ∧ t.counters.sheds = min 4294967295 (s.counters.sheds + gone.length)
      ∧ (∀ r, gone.head? = some r →
          Told ⟨"!SHED", .pacing, .degraded,
            [("ISN", .isn r.isn), ("COUNT", .num gone.length), ("REASON", .word i.reason.text)]⟩ s t)
      ∧ Agrees [.line, .pace, .play, .store, .ports, .counters] s t

/-- A field that is left out when its value is absent. -/
def given (key : String) (value : Option Val) : List Field :=
  match value with
  | some v => [(key, v)]
  | none => []

/-- COVER= and COVERV=, as reports carry them: SILENCE, TONE or WINDOW1 to WINDOW8, and AUDIO or AUDIO+VIDEO. -/
def coverKeys (source : CoverSource) (withVideo : Bool) : List Field :=
  [("COVER", .word (match source with
      | .silence => "SILENCE"
      | .tone => "TONE"
      | .window n => "WINDOW" ++ toString n)),
    ("COVERV", .word (if withVideo then "AUDIO+VIDEO" else "AUDIO"))]

/-- The fields of SLICE in the order of the table of R61. -/
def sliceFields (x : Rec) : List Field :=
  [("ISN", .num x.isn.toNat)]
    ++ given "TS" (x.ts.map fun n => .num n.toNat) ++ given "TC" (x.tc.map .tc) ++ given "PAGE" (x.page.map .num)
    ++ [("VIDEO", .num x.videoBytes), ("AUDIO", .word (if x.audio then "YES" else "NO")), ("CAPT", .num x.captBytes),
      ("COND", .word (match x.cond with
        | .intact => "INTACT"
        | .partialSlice => "PARTIAL"
        | .loss => "LOSS"
        | .damaged => "DAMAGED"))]
    ++ given "LOSS" (x.loss.map fun
        | .missing => .word "MISSING"
        | .stagingFull => .word "STAGING_FULL"
        | .noPage => .word "NO_PAGE")
    ++ [("QUIET", .word (if x.quiet then "YES" else "NO"))]
    ++ (match x.fields.disp with
      | .keep => [("DISP", .word "KEEP")]
      | .drop => [("DISP", .word "DROP")]
      | .cover source withVideo => ("DISP", .word "COVER") :: coverKeys source withVideo
      | .mute mask => [("DISP", .word "MUTE"), ("MASK", .mask mask)]
      | .shed => [("DISP", .word "SHED")])
    ++ [("CAPTIONS", .word (if x.fields.captions then "KEEP" else "REMOVE"))]
    ++ given "CUT" (x.cut.map .num)
    ++ [("STATE", .word (match x.life with
        | .writing => "WRITING"
        | .held => "HELD"
        | .committed => "COMMITTED"
        | .emitting => "EMITTING")),
      ("EDIT", .num x.edit.toNat)]
    ++ (if x.skipped then [("SKIPPED", .word "YES")] else [])

/-- SLICE with ISN= answers with the fields of that record, each as it stands and in the order of the table, absent ones
left out, or NOT-FOUND, and changes nothing but its port (R61). -/
def Obligations.SliceReportsTheRecord : Prop :=
  ∀ (s : State) (p : Port) (r : Request) (v : String) (n : Nat), Routed s p r → r.word = .slice →
    r.keys = [("ISN", v)] → numberIn 0 4294967295 v.toList = some n →
    ∃ t, exec (.slice p) s = .next t
      ∧ Agrees [.ports] s t ∧ OtherPortsKept p s t
      ∧ (match s.line.records.find? (fun x => x.isn = BitVec.ofNat 32 n) with
        | some x => Replied p r .ok (sliceFields x) s t
        | none => Replied p r .notFound [] s t)

/-- STATUS without a field answers OK with H, T, B, the mode, the pacing state, S, A, the newest ISN, O, the record count,
the free pages and the reference state, as they stand, and changes nothing but its port; with a field it is BAD. A port
routes a STATUS of any station, enrolled on it or not (R62). -/
def Obligations.StatusReportsTheDelay : Prop :=
  (∀ (s : State) (p : Port) (l : QueuedLine) (r : Request), l.request = some r → r.word = .status →
    ((takeLine p l s).ports.get p).current = some ⟨r, false⟩)
  ∧ (∀ (s : State) (p : Port) (r : Request), Routed s p r → r.word = .status → r.keys ≠ [] →
    ∃ t, exec (.status p) s = .next t ∧ OnlyReplied p r .bad [] s t)
  ∧ ∀ (s : State) (p : Port) (r : Request), Routed s p r → r.word = .status → r.keys = [] →
    ∃ t, exec (.status p) s = .next t
      ∧ Agrees [.ports] s t ∧ OtherPortsKept p s t
      ∧ Replied p r .ok
          [("H", .num ((s.line.records.filter fun x =>
              (x.fields.disp ≠ .drop ∧ x.fields.disp ≠ .shed) ∧ x.life ≠ .emitting ∧ x.skipped = false).length)),
            ("T", .num s.force.target), ("B", .num s.force.band),
            ("MODE", .word (if s.pace.mode = .engaged then "ENGAGED" else "BYPASS")),
            ("PACE", .word (match s.pace.st with
              | .idle => "IDLE"
              | .steady => "STEADY"
              | .rebuild => "REBUILD"
              | .trim => "TRIM")),
            ("S", .num s.pace.slip), ("A", .num s.line.boundary.toNat),
            ("NEWEST", match s.line.records.getLast? with
              | some x => .num x.isn.toNat
              | none => .word "NONE"),
            ("O", .num s.pack.out.toNat), ("RECORDS", .num s.line.records.length),
            ("FREE", .num s.line.freePool.length),
            ("REF", .word (if s.timer.locked then "LOCKED" else "HOLDOVER"))] s t

/-! ## Chapter 4: cuts -/

/-- An update is on its way to the Hold Line: it names the ISNs from `first` on, `count` of them, and gives every record
of the line among them what the table of the effective disposition makes of it with the list as it now stands (R70, R84),
and its answer is awaited for the port's request. -/
def UpdateSent (p : Port) (r : Request) (what : AwaitKind) (first : Isn) (count : Nat) (openEnded : Bool)
    (s t : State) : Prop :=
  t.cuts.awaiting = some ⟨.request p r, what, first, count, openEnded, false⟩
    ∧ ∃ u, t.cuts.update = some u ∧ u.first = first ∧ u.count = count
      ∧ u.items = (s.line.records.filter fun x => (x.isn - first).toNat < count).map fun x =>
          ⟨x.isn, (t.cuts.derive x.isn).1, (t.cuts.derive x.isn).2⟩

/-- A new cut stands at the back of the list, with its pending answer, and its update has been sent (R64, R65, R70). -/
def CutEntered (p : Port) (r : Request) (action : CutAction) (captions : Bool) (first : Isn) (last : Option Isn)
    (target : Option Target) (count : Nat) (s t : State) : Prop :=
  ∃ c : Cut, t.cuts.cuts = s.cuts.cuts ++ [c]
    ∧ (∀ x ∈ s.cuts.cuts, x.id ≠ c.id) ∧ 1 ≤ c.id ∧ c.id ≤ 255
    ∧ c.station = r.station
    ∧ (∀ st, s.ports.table.find? (fun x => x.station = r.station) = some st → c.level = st.level)
    ∧ c.action = action ∧ c.captions = captions ∧ c.first = first ∧ c.last = last ∧ c.target = target
    ∧ c.st = (if last = none then .opened else .armed) ∧ c.trimmed = 0 ∧ c.seq = s.cuts.seq ∧ c.pend = some .entry
    ∧ t.cuts.seq = s.cuts.seq + 1 ∧ t.cuts.nextId = (if c.id = 255 then 1 else c.id + 1)
    ∧ t.cuts.head = s.cuts.head ∧ t.cuts.boundary = s.cuts.boundary ∧ t.cuts.span = s.cuts.span
    ∧ t.cuts.watches = s.cuts.watches
    ∧ UpdateSent p r (.entry c.id) first count last.isNone s t
    ∧ Agrees [.cuts, .ports] s t ∧ OtherPortsKept p s t

/-- The !CUT of a cut that has reached a state (R68). -/
def cutTold (c : Cut) (state : String) (extra : List Field) : Notice :=
  ⟨"!CUT", .cuts, .concealed,
    [("ISN", .num c.first.toNat), ("CUT", .num c.id), ("STATE", .word state), ("BY", .num c.station)]
      ++ given "OUT" (c.last.map fun o => .num o.toNat) ++ extra⟩

/-- OUT= of a closed cut, or TARGET= of one that waits for its end (R73, R77). -/
def endKeys (c : Cut) : List Field :=
  match c.last, c.target with
  | some o, _ => [("OUT", .num o.toNat)]
  | none, some (.isn n) => [("TARGET", .num n.toNat)]
  | none, some (.tc tc) => [("TARGET", .tc tc)]
  | none, none => []

/-- A DUMP that finds 32 cuts listed is carried out unlisted over its range (R79): the span takes the range in, with the
ISNs between the old span and it, and one update drops them all under cut 0. The old span lies before the range, with or
without ISNs between, or reaches into it or past its end, from before it or from its first ISN on; after a hit that has
waited it may begin within the range, or lie behind it (R176). -/
def UnlistedDumpJoinsTheSpan : Prop :=
  ∀ (j : CutJob) (s : State) (x : Isn) (m g n : Nat), m + g + n + 1 < 2147483648 →
    let up (i : Isn) (k : Nat) : Isn := i + BitVec.ofNat 32 k
    let range (first last : Isn) (span : Span) (from_ : Isn) (count : Nat) : Prop :=
      let t := takeUnlisted j first last s
      t.cuts.span = some span ∧ t.cuts.cuts = s.cuts.cuts
        ∧ ∃ u, t.cuts.update = some u ∧ u.first = from_ ∧ u.count = count
          ∧ u.items = (s.line.records.filter fun r => (r.isn - from_).toNat < count).map
              fun r => ⟨r.isn, ⟨.drop, false⟩, some 0⟩
    (s.cuts.span = none → range x (up x n) ⟨x, up x n⟩ x (n + 1))
    ∧ (s.cuts.span = some ⟨x, up x m⟩ →
        range (up x (m + 1 + g)) (up x (m + 1 + g + n)) ⟨x, up x (m + 1 + g + n)⟩ (up x (m + 1)) (g + n + 1))
    ∧ (s.cuts.span = some ⟨up x (n + 1 + g), up x (n + 1 + g + m)⟩ →
        range x (up x n) ⟨x, up x (n + 1 + g + m)⟩ x (n + 1 + g))
    ∧ (s.cuts.span = some ⟨x, up x (m + g)⟩ →
        range (up x m) (up x (m + n)) ⟨x, up x (m + max g n)⟩ (up x m) (n + 1))
    ∧ (s.cuts.span = some ⟨up x n, up x (n + m)⟩ →
        range x (up x (n + g)) ⟨x, up x (n + max m g)⟩ x (n + g + 1))
    ∧ (∀ (p : Port) (r : Request), Routed s p r → CutEngineFree s → s.pace.mode = .engaged → 32 ≤ s.cuts.cuts.length →
        r.word = .dump → r.keys = [] →
        exec (.dump p) s = .next (takeUnlisted (.request p r)
          (if s.force.dumpDepth = 0 then s.cuts.boundary else s.cuts.head - BitVec.ofNat 32 s.force.dumpDepth + 1)
          s.cuts.head (s.onPort p fun x => { x with current := some ⟨r, true⟩ })))

/-- The ends of a CUT (R76). IN= after the head, and TCIN= that no record of the line carries, are NOT-FOUND; TCIN= names
the newest record that carries it. OUT= up to the head closes the cut there, and after it is an ISN target; TCOUT= names
the first record at or after IN that carries it, and is a timecode target when none does. An OUT before IN, or more than
4,095 past it, is BAD. -/
def CutResolvesItsEnds : Prop :=
  ∀ (s : State) (p : Port) (r : Request) (f : ActionFields) (action : CutAction) (captions : Bool) (tin tout : Target),
    Routed s p r → CutEngineFree s → s.pace.mode = .engaged → s.cuts.cuts.length < 32 → 1 ≤ s.cuts.nextId →
    s.cuts.nextId ≤ 255 → r.word = .cut → r.onlyKeys (["IN", "TCIN", "OUT", "TCOUT"] ++ actionKeys) = true →
    r.actionFields = some f → f.forNew = some (action, captions) →
    let names (t : Target) (isnKey tcKey : String) : Prop :=
      (∃ n, t = .isn n ∧ r.isn isnKey = some n ∧ r.has tcKey = false)
        ∨ (∃ tc, t = .tc tc ∧ r.timecode s.force.rate tcKey = some tc ∧ r.has isnKey = false)
    let carrying (tc : Timecode) : List Rec := s.line.records.filter fun x => decide (x.tc = some tc)
    let start : Option Isn := match tin with
      | .isn n => if isAfter n s.cuts.head then none else some n
      | .tc tc => (carrying tc).getLast?.map (·.isn)
    names tin "IN" "TCIN" → names tout "OUT" "TCOUT" →
    ∃ t, exec (.cut p) s = .next t
      ∧ (start = none → OnlyReplied p r .notFound [] s t)
      ∧ (∀ first, start = some first → isAfter first s.cuts.head = false →
        let bad (n : Isn) : Prop := isAfter first n = true ∨ 4095 < fwd first n
        let entered (last : Option Isn) (target : Option Target) : Prop :=
          CutEntered p r action captions first last target
            (through first (match last with
              | some o => if isAfter s.cuts.head o then o else s.cuts.head
              | none => s.cuts.head)) s t
        (∀ n, tout = .isn n →
          (bad n → OnlyReplied p r .bad [] s t)
          ∧ (¬ bad n → isAfter n s.cuts.head = false → entered (some n) none)
          ∧ (¬ bad n → isAfter n s.cuts.head = true → entered none (some (.isn n))))
        ∧ (∀ tc, tout = .tc tc →
          match (carrying tc).find? (fun x => atOrAfter x.isn first) with
          | some x => (bad x.isn → OnlyReplied p r .bad [] s t) ∧ (¬ bad x.isn → entered (some x.isn) none)
          | none => entered none (some (.tc tc))))

/-- A DUMP from the reported boundary when no record is amendable names no ISN, and is settled at once without an update:
closed at the head, or unlisted, it is TOO-LATE with TRIM=0 and makes no cut; with a tail its cut stands OPEN with its
target, answered OK (R70, R78, R79). -/
def EmptyRangesAreSettledAtOnce : Prop :=
  ∀ (s : State) (p : Port) (r : Request), Routed s p r → CutEngineFree s → s.pace.mode = .engaged → r.word = .dump →
    r.keys = [] → s.force.dumpDepth = 0 → isAfter s.cuts.boundary s.cuts.head = true → s.force.dumpTail ≤ 25 →
    1 ≤ s.cuts.nextId → s.cuts.nextId ≤ 255 →
    let out : Isn := s.cuts.head + BitVec.ofNat 32 s.force.dumpTail
    ∃ t, exec (.dump p) s = .next t
      ∧ Agrees cutTouches s t ∧ t.cuts.awaiting = none ∧ t.cuts.update = none ∧ t.cuts.span = s.cuts.span
      ∧ (s.force.dumpTail = 0 ∨ 32 ≤ s.cuts.cuts.length →
        Replied p r .tooLate [("TRIM", .num 0)] s t ∧ t.cuts.cuts = s.cuts.cuts)
      ∧ (s.force.dumpTail ≠ 0 → s.cuts.cuts.length < 32 →
        ∃ c : Cut, t.cuts.cuts = s.cuts.cuts ++ [c] ∧ (∀ x ∈ s.cuts.cuts, x.id ≠ c.id) ∧ c.station = r.station
          ∧ c.action = .drop ∧ c.captions = false ∧ c.first = s.cuts.boundary ∧ c.last = none
          ∧ c.target = some (.isn out) ∧ c.st = .opened ∧ c.trimmed = 0 ∧ c.pend = none
          ∧ Replied p r .ok [("CUT", .num c.id), ("IN", .num s.cuts.boundary.toNat), ("TARGET", .num out.toNat)] s t
          ∧ ((s.ports.get p).queue = [] → Told (cutTold c "OPEN" []) s t))

/-- MARK-IN, CUT and DUMP in ENGAGED mode, with fewer than 32 cuts listed and the Cut Engine free, enter a new cut under
an id that is not listed and send its update. MARK-IN: open-ended, from the head less the reaction allowance, over R + 1
ISNs (R72). CUT with its ends given as ISNs or as timecodes: closed over its range when its OUT has been created, and
open-ended with a target otherwise (R76, R77). DUMP: DROP from K slices back, or from the reported boundary when K is 0,
with the head plus the dump tail as its OUT, which is a target unless the tail is 0 (R78); with 32 cuts listed it is
carried out unlisted, without a tail (R79); and a range that names no ISN is settled at once (R70). That an unlisted DUMP
drops every ISN under cut 0, also one that a listed DROP covers, and where its span may lie, are the model's readings (log
entries 70 and 19). -/
def Obligations.MarkInCutAndDumpEnterACut : Prop :=
  UnlistedDumpJoinsTheSpan ∧ CutResolvesItsEnds ∧ EmptyRangesAreSettledAtOnce ∧
  ∀ (s : State) (p : Port) (r : Request), Routed s p r → CutEngineFree s → s.pace.mode = .engaged →
    s.cuts.cuts.length < 32 → 1 ≤ s.cuts.nextId → s.cuts.nextId ≤ 255 →
    (∀ f action captions, r.word = .markIn → r.onlyKeys actionKeys = true → r.actionFields = some f →
      f.forNew = some (action, captions) → s.force.react ≤ 100 →
      ∃ t, exec (.markIn p) s = .next t
        ∧ CutEntered p r action captions (s.cuts.head - BitVec.ofNat 32 s.force.react) none none (s.force.react + 1) s t)
    ∧ (∀ f action captions (first last : Isn), r.word = .cut → r.onlyKeys (["IN", "OUT"] ++ actionKeys) = true →
      r.actionFields = some f → f.forNew = some (action, captions) → r.isn "IN" = some first →
      r.isn "OUT" = some last → isAfter first s.cuts.head = false → isAfter last s.cuts.head = false →
      isAfter first last = false → fwd first last ≤ 4095 →
      ∃ t, exec (.cut p) s = .next t
        ∧ CutEntered p r action captions first (some last) none
            (through first (if isAfter s.cuts.head last then last else s.cuts.head)) s t)
    ∧ (r.word = .dump → r.keys = [] → s.force.dumpDepth ≤ 3600 → s.force.dumpTail ≤ 25 →
      (s.force.dumpDepth = 0 → isAfter s.cuts.boundary s.cuts.head = false) →
      let first : Isn := if s.force.dumpDepth = 0 then s.cuts.boundary
        else s.cuts.head - BitVec.ofNat 32 (s.force.dumpDepth - 1)
      let out : Isn := s.cuts.head + BitVec.ofNat 32 s.force.dumpTail
      ∃ t, exec (.dump p) s = .next t
        ∧ CutEntered p r .drop false first (if s.force.dumpTail = 0 then some out else none)
            (if s.force.dumpTail = 0 then none else some (.isn out)) (through first s.cuts.head) s t)

/-- The state that the test against a reported boundary gives a cut, as sent; DONE leaves the list (R67, R87). -/
def stateAfter (boundary : Isn) (c : Cut) : String :=
  if c.last.any (fun o => isAfter boundary o) then "DONE"
  else match (if isAfter boundary c.first then .active else c.st) with
    | .opened => "OPEN"
    | .armed => "ARMED"
    | .active => "ACTIVE"

/-- A cut stands in the list as the test against the reported boundary leaves it, or has left the list as DONE. -/
def CutStands (boundary : Isn) (c : Cut) (t : State) : Prop :=
  if c.last.any (fun o => isAfter boundary o) then t.cuts.cut c.id = none
  else t.cuts.cut c.id = some { c with st := if isAfter boundary c.first then .active else c.st }

/-- The Hold Line's answer settles the request that awaited it. A new cut (R70): none late is OK with CUT=, IN= and OUT= or
TARGET=; some late, LATE, when IN becomes the first ISN not late, or the one after the last named when all of an
open-ended cut's were late (log entry 16), and the trimmed count the number late; all late of a closed cut TOO-LATE, and
the cut is gone. A cut that stays has its pending answer cleared, is ACTIVE or gone where the reported
boundary has passed its IN or its OUT meanwhile, and raises !CUT with its state (R67, R87). An AMEND (R80): OK or LATE with
TRIM= and !CUT with AMENDED=YES, or TOO-LATE; the cut stands amended. A REVOKE (R81): OK or LATE, and the cut leaves
REVOKED with its revoker; TOO-LATE, and it leaves DONE. After a revoke-all the reply is the same, and the cut leaves
REVOKED with REVOKER=0 (R88). An unlisted DUMP (R79): TOO-LATE when every ISN named was late, and the span is as it was,
at the boundary now reported and none after a revoke-all; else OK or LATE with CUT=0, and !CUT with STATE=DONE. That TRIM=
of an unlisted DUMP counts within its range only while TOO-LATE goes by all that its update named, the !CUT beside an
AMEND's and the notices of a revoke-all are the model's readings (log entries 18, 19, 22). -/
def Obligations.UpdateAnswerSettlesANewCut : Prop :=
  ∀ (s : State) (p : Port) (r : Request) (a : Awaiting) (ans : Answer), s.phase = .running →
    (s.ports.get p).current = some ⟨r, true⟩ → (s.ports.get p).queue = [] → s.cuts.awaiting = some a →
    a.job = .request p r → s.cuts.answer = some ans → s.cuts.queue = [] →
    let trim : List Field := if ans.late = 0 then [] else [("TRIM", .num ans.late)]
    let word : ResultWord := if ans.late = 0 then .ok else .late
    let allLate : Prop := a.openEnded = false ∧ ans.late = a.count
    let named (c : Cut) : Field := ("CUT", .num c.id)
    ∃ t, exec .updateAnswer s = .next t
      ∧ t.cuts.awaiting = none ∧ t.cuts.answer = none ∧ Agrees cutTouches s t
      ∧ (∀ c, a.what = .entry c.id → s.cuts.cut c.id = some c → a.openEnded = c.last.isNone →
        let ends (first : Isn) : List Field := [("IN", .num first.toNat)] ++ endKeys c
        let settled (first : Isn) : Prop :=
          let c' : Cut := { c with pend := none, first := first, trimmed := ans.late }
          (a.revokeAll = false → CutStands s.cuts.boundary c' t
              ∧ Told (cutTold c' (stateAfter s.cuts.boundary c') []) s t)
          ∧ (a.revokeAll = true → t.cuts.cut c.id = none ∧ Told (cutTold c' "REVOKED" [("REVOKER", .num 0)]) s t)
        (ans.late = 0 → (a.openEnded = true ∨ a.count ≠ 0) →
          Replied p r .ok ([named c] ++ ends c.first) s t ∧ settled c.first)
        ∧ (∀ first, 0 < ans.late → ans.first.getD (a.first + BitVec.ofNat 32 a.count) = first →
          (a.openEnded = true ∨ ans.late ≠ a.count) →
          Replied p r .late ([named c] ++ trim ++ ends first) s t ∧ settled first)
        ∧ (allLate → Replied p r .tooLate [("TRIM", .num ans.late)] s t ∧ t.cuts.cut c.id = none))
      ∧ (∀ c, a.what = .amend c.id → s.cuts.cut c.id = some c → a.count ≠ 0 →
        let c' : Cut := { c with pend := none }
        (allLate → Replied p r .tooLate [("TRIM", .num ans.late)] s t)
        ∧ (¬ allLate → Replied p r word trim s t
            ∧ Told (cutTold c' (match c.st with
                | .opened => "OPEN"
                | .armed => "ARMED"
                | .active => "ACTIVE") [("AMENDED", .word "YES")]) s t)
        ∧ (a.revokeAll = false → CutStands s.cuts.boundary c' t) ∧ (a.revokeAll = true → t.cuts.cut c.id = none))
      ∧ (∀ c, a.what = .revoke c.id → s.cuts.cut c.id = some c → a.count ≠ 0 → t.cuts.cut c.id = none
        ∧ (allLate → Replied p r .tooLate [named c, ("TRIM", .num ans.late)] s t
            ∧ (a.revokeAll = false → Told (cutTold c "DONE" []) s t))
        ∧ (¬ allLate → Replied p r word ([named c] ++ trim) s t
            ∧ Told (cutTold c "REVOKED" [("REVOKER", .num r.station)]) s t))
      ∧ (∀ range old gap, a.what = .unlisted range old gap →
        let n := through range.first range.last
        let k := min (ans.late - gap) n
        t.cuts.cuts = s.cuts.cuts
        ∧ (allLate → Replied p r .tooLate [("TRIM", .num k)] s t
            ∧ t.cuts.span = (if a.revokeAll then none else old.bind fun sp =>
                if isAfter s.cuts.boundary sp.last then none
                else if isAfter s.cuts.boundary sp.first then some ⟨s.cuts.boundary, sp.last⟩ else some sp))
        ∧ (¬ allLate → t.cuts.span = s.cuts.span
            ∧ Replied p r (if k = 0 then .ok else .late)
                ([("CUT", .num 0)] ++ (if k = 0 then [] else [("TRIM", .num k)])
                  ++ [("IN", .num range.first.toNat), ("OUT", .num range.last.toNat)]) s t
            ∧ Told ⟨"!CUT", .cuts, .concealed, [("ISN", .num range.first.toNat), ("CUT", .num 0),
                ("STATE", .word "DONE"), ("OUT", .num range.last.toNat)]⟩ s t))

/-- Why a new record closes an open-ended cut: its ISN target, its timecode target, or the open-cut limit (R74, R75). -/
def closureOf (r : Rec) (limit : Nat) (c : Cut) : Option String :=
  if c.last ≠ none ∨ c.pend = some .revoke then none
  else if c.target = some (.isn r.isn) then some "MARK-OUT"
  else if r.tc ≠ none ∧ c.target = r.tc.map .tc then some "TARGET"
  else if atOrAfter r.isn c.first = true ∧ limit ≤ (r.isn - c.first).toNat + 1 then some "AUTO"
  else none

/-- The record that a closing mark makes takes its disposition from the list as it stands, and then closes each open-ended
cut that it meets at its ISN: OPEN becomes ARMED, and !CUT tells the first of them with its reason (R43, R74, R75). -/
def NewRecordsCloseCuts : Prop :=
  ∀ s : State, s.phase = .running → s.timer.markPending = true → s.line.count < 4096 →
    (s.cuts.cuts.map (·.id)).Nodup → (∀ w ∈ s.cuts.watches, w = none) →
    ∃ t r, exec .closingMark s = .next t ∧ t.line.records = s.line.records ++ [r]
      ∧ (r.fields, r.cut) = s.cuts.derive r.isn
      ∧ (let why := closureOf r s.force.openLimit
        let state (c : Cut) : CutState := if c.st = .opened then .armed else c.st
        t.cuts.cuts = s.cuts.cuts.map (fun c =>
            if why c = none then c else { c with last := some r.isn, target := none, st := state c })
          ∧ ∀ c reason, s.cuts.cuts.find? (fun c => why c ≠ none) = some c → why c = some reason →
            Told ⟨"!CUT", .cuts, if reason = "AUTO" then .attention else .concealed,
              [("ISN", .num c.first.toNat), ("CUT", .num c.id),
                ("STATE", .word (if c.st = .active then "ACTIVE" else "ARMED")), ("BY", .num c.station),
                ("OUT", .num r.isn.toNat), ("REASON", .word reason)]⟩ s t)

/-- A cut that a MARK-OUT can find: open-ended, and not being revoked (R73). -/
def openEnded (c : Cut) : Bool := c.last.isNone && decide (c.pend ≠ some .revoke)

/-- The cut that a MARK-OUT names: with CUT=, the open-ended cut of that id; without it, the requester's own open-ended cut
with the latest acceptance sequence, the last in the list (R64, R73). -/
def MarkOutNames (s : State) (r : Request) (x : Option Cut) : Prop :=
  (∃ v n, r.keys = [("CUT", v)] ∧ numberIn 0 255 v.toList = some n
      ∧ x = s.cuts.cuts.find? fun c => openEnded c && decide (c.id = n))
    ∨ (r.keys = [] ∧ x = (s.cuts.cuts.filter fun c => openEnded c && decide (c.station = r.station)).getLast?)

/-- MARK-OUT of a listed open-ended cut, named by CUT= or the requester's own latest one, by its own station or by one of at
least its level, sets the head plus the post-roll as the cut's ISN target when that record is still to come, and answers
with TARGET= (R73). With a post-roll of 0 it fixes OUT at the head at once, answers with OUT=, and the cut is closed: ARMED
if it was OPEN, unless the reported boundary has passed it (R67, R73). A requester without that authority is DENIED, and
one whose MARK-OUT finds no such cut is told NOT-FOUND; neither changes anything (R73, R83). An open-ended cut is closed too
by the record that reaches its ISN target, carries its timecode target, or fills the open-cut limit, which the record's own
disposition does not see; !CUT tells it with REASON=MARK-OUT, TARGET or AUTO (R74, R75). That this !CUT comes before what
the Ingest Unit raises at the same closing mark is the model's choice, since R188 leaves the order open (log entry 13). -/
def Obligations.MarkOutEndsAnOpenCut : Prop :=
  NewRecordsCloseCuts ∧
  ∀ (s : State) (p : Port) (r : Request) (x : Option Cut), Routed s p r → CutEngineFree s →
    r.word = .markOut → MarkOutNames s r x → s.force.postRoll ≤ 25 →
    let out : Isn := s.cuts.head + BitVec.ofNat 32 s.force.postRoll
    ∃ t, exec (.markOut p) s = .next t
      ∧ Agrees cutTouches s t
      ∧ (x = none → OnlyReplied p r .notFound [] s t)
      ∧ (∀ c st, x = some c → s.ports.table.find? (fun y => y.station = r.station) = some st →
        let may : Prop := r.station = c.station ∨ c.level ≤ st.level
        (¬ may → Replied p r .denied [] s t ∧ t.cuts = s.cuts)
        ∧ (may → s.force.postRoll ≠ 0 →
          Replied p r .ok [("CUT", .num c.id), ("TARGET", .isn out)] s t
            ∧ t.cuts.cuts = s.cuts.cuts.map fun x => if x.id = c.id then { c with target := some (.isn out) } else x)
        ∧ (may → s.force.postRoll = 0 →
          Replied p r .ok [("CUT", .num c.id), ("OUT", .isn out)] s t
            ∧ (if isAfter s.cuts.boundary out then t.cuts.cut c.id = none
              else t.cuts.cut c.id = some { c with
                last := some out, target := none
                st := if isAfter s.cuts.boundary c.first then .active
                  else if c.st = .opened then .armed else c.st })))

/-- REVOKE and AMEND of a listed cut that no answer is pending for, by its own station or by one of at least its level,
mark the cut, an AMEND with its new fields as well, and send the update of its range (R80, R81); a range that names no ISN
is settled at once with OK: the revoked cut leaves, and the amended one stands (R70). Without that authority they are
DENIED, and a cut that is not listed is NOT-FOUND (R69, R83). That an AMEND of a cut that is not listed is NOT-FOUND also
where its action fields fit no cut is the model's reading of R69 and R80 (log entry 54). -/
def Obligations.RevokeAndAmendReachAListedCut : Prop :=
  ∀ (s : State) (p : Port) (r : Request) (st : Station) (n : Nat), Routed s p r → CutEngineFree s →
    r.cutId = some n → s.ports.table.find? (fun x => x.station = r.station) = some st →
    (r.word = .revoke → r.onlyKeys ["CUT"] = true →
      ∃ t, exec (.revoke p) s = .next t ∧ Agrees cutTouches s t
        ∧ (s.cuts.cut n = none → Replied p r .notFound [] s t ∧ t.cuts = s.cuts)
        ∧ (∀ c, s.cuts.cut n = some c → c.pend = none →
          let count := through c.first (match c.last with
            | some o => if isAfter s.cuts.head o then o else s.cuts.head
            | none => s.cuts.head)
          (r.station ≠ c.station → st.level < c.level → Replied p r .denied [] s t ∧ t.cuts = s.cuts)
          ∧ ((r.station = c.station ∨ c.level ≤ st.level) → count ≠ 0 →
            t.cuts.cuts = s.cuts.cuts.map (fun x => if x.id = n then { c with pend := some .revoke } else x)
              ∧ UpdateSent p r (.revoke n) c.first count c.last.isNone s t)
          ∧ ((r.station = c.station ∨ c.level ≤ st.level) → count = 0 →
            Replied p r .ok [("CUT", .num c.id)] s t ∧ t.cuts.cut n = none ∧ t.cuts.awaiting = none
              ∧ t.cuts.update = none
              ∧ ((s.ports.get p).queue = [] → Told (cutTold c "REVOKED" [("REVOKER", .num r.station)]) s t))))
    ∧ (∀ f, r.word = .amend → r.onlyKeys ("CUT" :: actionKeys) = true → actionKeys.any r.has = true →
      r.actionFields = some f →
      ∃ t, exec (.amend p) s = .next t ∧ Agrees cutTouches s t
        ∧ (s.cuts.cut n = none → Replied p r .notFound [] s t ∧ t.cuts = s.cuts)
        ∧ (∀ c action captions, s.cuts.cut n = some c → c.pend = none →
          f.forAmend c.action c.captions = some (action, captions) →
          let count := through c.first (match c.last with
            | some o => if isAfter s.cuts.head o then o else s.cuts.head
            | none => s.cuts.head)
          (r.station ≠ c.station → st.level < c.level → Replied p r .denied [] s t ∧ t.cuts = s.cuts)
          ∧ ((r.station = c.station ∨ c.level ≤ st.level) → count ≠ 0 →
            t.cuts.cuts = s.cuts.cuts.map (fun x =>
                if x.id = n then { c with action := action, captions := captions, pend := some .amend } else x)
              ∧ UpdateSent p r (.amend n) c.first count c.last.isNone s t)
          ∧ ((r.station = c.station ∨ c.level ≤ st.level) → count = 0 →
            let c' : Cut := { c with action := action, captions := captions }
            Replied p r .ok [] s t ∧ CutStands s.cuts.boundary c' t ∧ t.cuts.awaiting = none ∧ t.cuts.update = none
              ∧ ((s.ports.get p).queue = [] → Told (cutTold c' (match c.st with
                | .opened => "OPEN"
                | .armed => "ARMED"
                | .active => "ACTIVE") [("AMENDED", .word "YES")]) s t))))

/-- The effective disposition of an ISN and its deciding cut, from every listed cut that covers it and the unlisted span:
DROP before COVER before MUTE before KEEP, the deciding cut being the covering one of that action with the latest
acceptance sequence, which is the last in the list, since cuts are kept in acceptance order (R64); the mask of a MUTE is
the union of all covering mutes; captions are REMOVE for DROP and where any covering COVER or MUTE cut says REMOVE (R66,
R84, R85). -/
def Obligations.EffectiveDispositionFollowsTheTable : Prop :=
  ∀ (e : CutEngine) (x : Isn),
    let covering (c : Cut) : Prop :=
      c ∈ e.cuts ∧ c.pend ≠ some .revoke ∧ atOrAfter x c.first = true
        ∧ ∀ o, c.last = some o → atOrAfter o x = true
    let latest (c : Cut) (w : ActionWord) : Prop :=
      covering c ∧ c.action.word = w
        ∧ ∃ older later, e.cuts = older ++ c :: later ∧ ∀ d ∈ later, covering d → d.action.word ≠ w
    let dropped : Prop := (∃ c, covering c ∧ c.action = .drop) ∨ ∃ sp, e.span = some sp ∧ sp.covers x = true
    let kept : Bool := (e.derive x).1.captions
    (dropped → (e.derive x).1 = ⟨.drop, false⟩
      ∧ ((∃ c, latest c .drop ∧ (e.derive x).2 = some c.id)
        ∨ ((∀ c, covering c → c.action ≠ .drop) ∧ (e.derive x).2 = some 0)))
    ∧ (¬ dropped → (∃ c, covering c ∧ c.action.word = .cover) →
      (∃ c src vid, latest c .cover ∧ c.action = .cover src vid ∧ (e.derive x).1.disp = .cover src vid
        ∧ (e.derive x).2 = some c.id)
      ∧ (kept = true ↔ ∀ c, covering c → c.captions = true))
    ∧ (¬ dropped → (∀ c, covering c → c.action.word = .mute) → (∃ c, covering c) →
      (∃ c mask, latest c .mute ∧ (e.derive x).1.disp = .mute mask ∧ (e.derive x).2 = some c.id
        ∧ ∀ i : Nat, mask.getLsbD i = true ↔ ∃ d m, covering d ∧ d.action = .mute m ∧ m.getLsbD i = true)
      ∧ (kept = true ↔ ∀ c, covering c → c.captions = true))
    ∧ (¬ dropped → (∀ c, ¬ covering c) → e.derive x = (⟨.keep, true⟩, none))

/-- A commit report moves the cuts that have no answer pending: a closed cut whose OUT the new boundary has passed leaves
the list, an OPEN or ARMED one whose IN it has passed becomes ACTIVE, and every other cut stays as it is; the unlisted
span is cleared or begun at the boundary (R87). The ids listed are distinct (R64). -/
def Obligations.CommitReportMovesTheCuts : Prop :=
  ∀ (s : State) (b : Isn), (s.cuts.cuts.map (·.id)).Nodup →
    let t := commitReport b s
    let passed (n : Isn) : Prop := isAfter b n = true
    t.cuts.boundary = b
      ∧ (∀ c ∈ s.cuts.cuts,
          (c.pend = none → (∃ o, c.last = some o ∧ passed o) → t.cuts.cut c.id = none)
          ∧ (c.pend = none → (∀ o, c.last = some o → ¬ passed o) → passed c.first →
              t.cuts.cut c.id = some { c with st := .active })
          ∧ (c.pend ≠ none ∨ ((∀ o, c.last = some o → ¬ passed o) ∧ ¬ passed c.first) →
              t.cuts.cut c.id = some c))
      ∧ (∀ sp, s.cuts.span = some sp →
          t.cuts.span = (if isAfter b sp.last then none else if isAfter b sp.first then some ⟨b, sp.last⟩ else some sp))
      ∧ (s.cuts.span = none → t.cuts.span = none)
      ∧ Agrees cutTouches s t

/-- The fields of CUTS with CUT= in the order of the table of R89. -/
def cutFields (c : Cut) : List Field :=
  [("CUT", .num c.id), ("BY", .num c.station), ("LEVEL", .num c.level),
    ("ACTION", .word (match c.action with
      | .drop => "DROP"
      | .cover _ _ => "COVER"
      | .mute _ => "MUTE")),
    ("STATE", .word (match c.st with
      | .opened => "OPEN"
      | .armed => "ARMED"
      | .active => "ACTIVE")),
    ("IN", .num c.first.toNat)]
    ++ endKeys c
    ++ (match c.action with
      | .drop => []
      | .cover source withVideo => coverKeys source withVideo
      | .mute mask => [("MASK", .mask mask)])
    ++ [("CAPTIONS", .word (if c.captions then "KEEP" else "REMOVE")), ("TRIM", .num c.trimmed), ("SEQ", .num c.seq.toNat)]

/-- CUTS without a key answers with the number of cuts listed and their ids in acceptance order, and with the unlisted
span where there is one; with CUT= of a cut that is listed and not being revoked, with that cut's fields in the order of
the table; otherwise NOT-FOUND. It changes nothing but its port (R89). -/
def Obligations.CutsReportsTheList : Prop :=
  ∀ (s : State) (p : Port) (r : Request), Routed s p r → CutEngineFree s → r.word = .cuts →
    (r.keys = [] →
      ∃ t, exec (.cuts p) s = .next t ∧ Agrees [.ports] s t ∧ OtherPortsKept p s t
        ∧ Replied p r .ok
            ([("COUNT", .num s.cuts.cuts.length), ("IDS", .word (commaList (s.cuts.cuts.map (·.id))))]
              ++ (match s.cuts.span with
                | some sp => [("SPANIN", .isn sp.first), ("SPANOUT", .isn sp.last)]
                | none => [])) s t)
    ∧ (∀ v n, r.keys = [("CUT", v)] → numberIn 0 255 v.toList = some n →
      ∃ t, exec (.cuts p) s = .next t ∧ Agrees [.ports] s t ∧ OtherPortsKept p s t
        ∧ (match (s.cuts.cuts.find? fun c => c.id = n) with
          | some c => if c.pend = some .revoke then Replied p r .notFound [] s t else Replied p r .ok (cutFields c) s t
          | none => Replied p r .notFound [] s t))

/-! ## Chapter 5: pacing -/

/-- Two notices have been told in turn, the second right behind the first, on each port that hears them: behind the lines
that wait on a busy transmitter with room for both, or, on a port with nothing to send, the first begun and the second
waiting (R188, R189). -/
def ToldInTurn (n m : Notice) (s t : State) : Prop :=
  ∀ p, s.ports.audience p n.group ≠ [] →
    ((s.ports.get p).sending ≠ none → (s.ports.get p).notices.length + 2 ≤ 32 →
      ∃ later, (t.ports.get p).notices = (s.ports.get p).notices ++ noticeCopy s p n :: noticeCopy s p m :: later)
    ∧ ((s.ports.get p).sending = none → (s.ports.get p).replies = [] → (s.ports.get p).notices = [] →
      (s.ports.get p).drops = 0 →
      (t.ports.get p).sending = some ⟨n.text, (noticeCopy s p n).addresses, .nothing⟩
        ∧ ∃ later, (t.ports.get p).notices = noticeCopy s p m :: later)

/-- The pacing state after the table of R93, with H, T and B as integers. -/
def movedState (st : PaceState) (h t b : Int) : PaceState :=
  match st with
  | .idle => .idle
  | .steady => if h < t - b then .rebuild else if h > t + b then .trim else .steady
  | .rebuild => if h > t + b then .trim else if h ≥ t then .steady else .rebuild
  | .trim => if h < t - b then .rebuild else if h ≤ t then .steady else .trim

/-- The kept records that wait, in ISN order. -/
def waitsIn (s : State) : List Rec := s.line.records.filter fun x => x.kept && x.life != .emitting && !x.skipped

/-- A SKIP without a follower is carried out as NORMAL (R117). -/
def skipsIn (kind : PeriodKind) (s : State) : Bool := decide (kind = .skip) && decide (2 ≤ (waitsIn s).length)

/-- The record to begin: the due slice, the follower of a SKIP, or none in a REPEAT (R117). -/
def chosenIn (kind : PeriodKind) (s : State) : Option Rec :=
  if kind = .repeated then none else if skipsIn kind s then (waitsIn s)[1]? else (waitsIn s).head?

/-- The slot bound to a record, once the slots that were EMITTING are EMPTY (R117). -/
def slotIn (s : State) (x : Rec) : Option BufPhase :=
  (s.play.slots.find? fun b => decide (b.phase ≠ .emitting) && decide (b.isn = some x.isn)).map (·.phase)

/-- The record chosen begins emission with its essence in hand (R118). -/
def emittedIn (s : State) (x : Rec) : Bool :=
  match x.life, x.page, slotIn s x with
  | .writing, _, _ | _, none, _ => false
  | _, some _, some (.ready _ _) => true
  | _, some _, _ => false

/-- The record chosen begins emission concealed (R120). -/
def concealedIn (s : State) (x : Rec) : Bool :=
  decide (x.life ≠ .writing) && (x.page.isNone || decide (slotIn s x = some .faulted))

/-- The lookahead: the kept record that follows the one begun, or the due slice when none begins (R121). -/
def aheadIn (kind : PeriodKind) (s : State) : Option Rec :=
  match (chosenIn kind s).filter fun x => emittedIn s x || concealedIn s x with
  | some x => ((waitsIn s).filter fun y => isAfter y.isn x.isn).head?
  | none => (waitsIn s).head?

/-- The record chosen begins emission without the clip slice of its WINDOW cover, and why (R126): its cover read has failed,
was cleared or has brought nothing yet, as it has for a record that this period start commits, unless the window is not
READY. -/
def fallbackIn (s : State) (x : Rec) : Option (Nat × String) :=
  match x.fields.disp with
  | .cover (.window n) _ =>
    let ready := decide ((s.store.window n).st = .ready) && (s.store.window n).defn.isSome
    let read : Option CoverRead :=
      (s.play.slots.find? fun b => decide (b.phase ≠ .emitting) && decide (b.isn = some x.isn)).map (·.cover)
    if x.committed = false then some (n, if ready then "LATE" else "NOT-READY")
    else match read with
      | some (.done _ _) => none
      | some (.failed .notReady _) => some (n, "NOT-READY")
      | some (.failed .fault _) => some (n, "FAULT")
      | some (.failed .cleared _) | some (.cleared _) => some (n, "CLEARED")
      | _ => some (n, "LATE")
  | _ => none

/-- The record chosen is not ready, after a first one has begun since the reset (R118). -/
def lateIn (kind : PeriodKind) (s : State) : Option Rec :=
  if s.play.last = none then none
  else (chosenIn kind s).filter fun x => !emittedIn s x && !concealedIn s x

/-- No kept record waits, after a first one has begun since the reset (R119). -/
def underrunIn (kind : PeriodKind) (s : State) : Bool :=
  decide (kind ≠ .repeated) && s.play.last.isSome && decide (waitsIn s = [])

/-- The window cover of the record chosen falls back under another deciding cut than the one noticed last (R126). -/
def fallsBackIn (kind : PeriodKind) (s : State) : Option (Rec × Nat × String) := do
  let x ← (chosenIn kind s).filter fun x => emittedIn s x && decide (x.cut ≠ s.play.lastFallback)
  let (n, why) ← fallbackIn s x
  some (x, n, why)

/-- What the Playout Unit itself tells at a period start, one notice at most (R118, R119, R126): !LATE_FETCH for a record
whose error noticed mark is clear, which sets the mark; !UNDERRUN for the first underrun of a run, which a record that
begins ends; and !COVER_FALLBACK. Where the boundary moves, !CUT notices of the commit report come before the last, one
for each cut at most. With no cut and no watch there is no other notice. -/
def PlayoutTellsWhatWentWrong : Prop :=
  ∀ (kind : PeriodKind) (s : State), LineOk s → (kind = .repeated → s.play.last ≠ none) →
    let t := playPeriod kind s
    let faults (name : String) (fields : List Field) : Notice := ⟨name, .faults, .degraded, fields⟩
    let lateFetch (x : Rec) : Notice := faults "!LATE_FETCH"
      [("ISN", .num x.isn.toNat), ("REASON", .word (if x.life = .writing then "WRITING" else "FETCHING"))]
    let underrun : Notice := faults "!UNDERRUN" [("O", .num s.pack.handed.toNat)]
    let fallback (x : Rec) (n : Nat) (why : String) : Notice := faults "!COVER_FALLBACK"
      [("ISN", .num x.isn.toNat), ("CUT", .num (x.cut.getD 0)), ("WINDOW", .num n), ("REASON", .word why)]
    (∀ x, lateIn kind s = some x → x.noticed = false → Told (lateFetch x) s t)
    ∧ (∀ y ∈ t.line.records, ∃ x ∈ s.line.records, x.isn = y.isn
        ∧ (y.noticed = true ↔ x.noticed = true ∨ (lateIn kind s).map (·.isn) = some x.isn))
    ∧ (underrunIn kind s = true → s.play.underrun = false → Told underrun s t)
    ∧ t.play.underrun = (match chosenIn kind s with
        | some x => if emittedIn s x || concealedIn s x then false else s.play.underrun
        | none => if underrunIn kind s then true else s.play.underrun)
    ∧ (∀ x n why, fallsBackIn kind s = some (x, n, why) → ∀ p, s.ports.audience p .faults ≠ [] →
        (s.ports.get p).sending ≠ none → (s.ports.get p).notices.length + s.cuts.cuts.length < 32 →
        ∃ earlier later, earlier.length ≤ s.cuts.cuts.length
          ∧ (t.ports.get p).notices = (s.ports.get p).notices ++ earlier ++ noticeCopy s p (fallback x n why) :: later)
    ∧ t.play.lastFallback = (match fallsBackIn kind s with
        | some (x, _, _) => x.cut
        | none => s.play.lastFallback)
    ∧ (s.cuts.cuts = [] → (∀ w ∈ s.cuts.watches, w = none) →
        t.ports = (match lateIn kind s, fallsBackIn kind s with
          | some x, _ => if x.noticed then s.ports else (raise (lateFetch x) s).ports
          | none, some (x, n, why) => (raise (fallback x n why) s).ports
          | none, none => if underrunIn kind s && !s.play.underrun then (raise underrun s).ports else s.ports))

/-- The Playout Unit's period start, for a kind (R117 to R122, R133): the record chosen begins, emitted or concealed, is in
EMITTING and committed, goes to the last-emitted slot, and H falls by one, and by one more for a skipped slice; one that is
late makes a freeze, and without one there is an underrun, both counted once a record has begun since the reset; a REPEAT
begins none. The output slice handed over carries the origin, the timecode and the flags of each case. The lookahead is
committed; with no record waiting, the whole line is. -/
def PlayoutCarriesOutTheKind : Prop :=
  ∀ (kind : PeriodKind) (s : State), LineOk s → (kind = .repeated → s.play.last ≠ none) →
    let t := playPeriod kind s
    let up (n : Nat) : Nat := min 4294967295 (n + 1)
    let begins (x : Rec) : Prop := emittedIn s x = true ∨ concealedIn s x = true
    let counted (freezes lateFetches : Bool) : Prop :=
      t.counters.freezes = (if freezes then up s.counters.freezes else s.counters.freezes)
        ∧ t.counters.lateFetches = (if lateFetches then up s.counters.lateFetches else s.counters.lateFetches)
    let begunBefore : Bool := s.play.last.isSome
    ∃ o, t.pack.queue.getLast? = some o ∧ o.number = s.pack.handed
      ∧ o.ts.toNat = (o.number.toNat * (48000 / s.force.rate)) % 4294967296
      ∧ o.slice.origin = (t.play.last.map (·.isn)).getD 4294967295 ∧ o.slice.tc = t.play.last.bind (·.tc)
      ∧ t.play.lookahead = (aheadIn kind s).map (·.isn)
      ∧ (∀ x, aheadIn kind s = some x → ∀ y ∈ t.line.records, y.isn = x.isn → y.committed = true)
      ∧ (waitsIn s = [] → ∀ y ∈ t.line.records, y.committed = true)
      ∧ (∀ x, chosenIn kind s = some x → begins x →
          (∃ e, t.play.last = some e ∧ e.isn = x.isn ∧ e.tc = x.tc ∧ e.quiet = x.quiet
            ∧ e.rendering = ⟨x.fields, x.cut⟩ ∧ e.concealed = concealedIn s x
            ∧ (∀ edit data, emittedIn s x = true → slotIn s x = some (.ready edit data) → e.essence = data))
          ∧ (∃ y ∈ t.line.records, y.isn = x.isn ∧ y.life = .emitting ∧ y.ended = false ∧ y.committed = true
              ∧ (x.page ≠ none → slotIn s x = some .faulted → y.cond = .damaged))
          ∧ (∀ b ∈ t.play.slots, b.isn = some x.isn → b.phase = .emitting)
          ∧ t.line.held + (if skipsIn kind s then 2 else 1) = s.line.held
          ∧ o.slice.repeatFlag = false ∧ o.slice.concealed = concealedIn s x ∧ counted false false)
      ∧ ((∀ x, chosenIn kind s = some x → ¬ begins x) → t.play.last = s.play.last ∧ t.line.held = s.line.held
          ∧ o.slice.repeatFlag = true
          ∧ (∀ e, kind = .repeated → s.play.last = some e → o.slice.concealed = e.concealed ∧ counted false false)
          ∧ (kind ≠ .repeated → o.slice.concealed = true ∧ o.slice.covered = false
              ∧ counted begunBefore (begunBefore && (chosenIn kind s).isSome)))

/-- A re-plan (R111 to R113), by itself and as the last thing of a period start: every bound slot is bound to a listed
record that is not in WRITING; the due slice, once written, is READY, FAULTED or under a demand fetch, or the prefetch of it
is in flight; and the prefetch-fault list names listed records only. -/
def ReplanServesTheWantedList : Prop :=
  ∀ s : State, LineOk s → PlayOk s →
    let served (t : State) : Prop :=
      let list := (t.line.records.filter fun x => decide (x.life = .emitting) && !x.ended)
        ++ (waitsIn t).take (1 + s.force.prefetch)
      PlayOk t
        ∧ (∀ b ∈ t.play.slots, ∀ i, b.isn = some i → ∃ x ∈ list, x.isn = i ∧ x.life ≠ .writing)
        ∧ (∀ i ∈ t.play.faults, ∃ x ∈ list, x.isn = i)
        ∧ (∀ d, (waitsIn t).head? = some d → d.life ≠ .writing →
            ∃ i b, t.play.slots[i]? = some b ∧ b.isn = some d.isn ∧ b.phase ≠ .empty
              ∧ (∀ edit, d.page ≠ none → b.phase = .fetching false edit → t.store.prefetchInFlight i = true))
    (replan s).line = s.line ∧ served (replan s)
      ∧ ∀ kind : PeriodKind, (kind = .repeated → s.play.last ≠ none) → served (playPeriod kind s)

/-- A reference pulse that a command gives leads to the period-start work of the Pacing Controller, on the state as it was
with the values of R195 in force, a waiting station table in force, O one higher, and what the Timer sets and tells (R5,
R92, R183, R195). -/
def PulseStartsThePeriod (c : Instr) (s : State) : Prop :=
  ∃ u : State, exec c s = .next (pacePeriod u)
    ∧ u = { s with
        now := u.now, timer := u.timer, ports := u.ports
        counters := { s.counters with dropped := u.counters.dropped }
        pack := { s.pack with out := s.pack.out + 1 }
        force := { s.settings.stored with
          rate := s.force.rate, stream := s.force.stream, initSeq := s.force.initSeq, autoEngage := s.force.autoEngage } }
    ∧ u.ports.waiting = none

/-- The period's kind is given to the Playout Unit, which carries it out on the state as it was, but for the controller's
own state, counters and notices (R92, R98). -/
def KindGiven (kind : PeriodKind) (s t : State) : Prop :=
  t.pace.kind = kind ∧ t.pace.period = none ∧ t.pack.handed = s.pack.handed + 1
    ∧ ∃ v : State, t = playPeriod kind v
      ∧ v = { s with
          pace := t.pace, ports := v.ports
          counters := { s.counters with
            repeats := t.counters.repeats, skips := t.counters.skips, dropped := v.counters.dropped } }

/-- The period start sends one shed instruction with these names and waits for the answer, the kind not yet given (R92). -/
def ShedAsked (reason : ShedReason) (names : List Isn) (s t : State) : Prop :=
  t.pace.period = some reason ∧ t.pace.instructions = s.pace.instructions ++ [⟨reason, names, true⟩]
    ∧ Agrees [.pace, .ports, .counters] s t

/-- The period-start work in BYPASS (R105): one shed instruction names every kept record at or after A but the newest HELD
one; with none to name the kind is NORMAL; S and the state stay as they are. -/
def BypassPassesTheProgram : Prop :=
  ∀ s : State, s.pace.mode = .bypass →
    let t := pacePeriod s
    let newest := (s.line.records.filter fun x => decide (x.life = .held)).getLast?
    let names := (s.line.records.filter fun x =>
      s.line.amendable x && x.kept && decide (newest.map (·.isn) ≠ some x.isn)).map (·.isn)
    t.pace.mode = .bypass ∧ t.pace.st = s.pace.st ∧ t.pace.slip = s.pace.slip
      ∧ t.counters.repeats = s.counters.repeats ∧ t.counters.skips = s.counters.skips
      ∧ (names = [] → KindGiven .normal s t) ∧ (names ≠ [] → ShedAsked .bypass names s t)

/-- The period-start work in ENGAGED mode (R92 to R99, R108). -/
def EngagedPeriodFollowsTheRules : Prop :=
  ∀ s : State, s.pace.mode = .engaged → s.pace.st ≠ .idle →
    let t := pacePeriod s
    let st := movedState s.pace.st s.line.held s.force.target s.force.band
    let s0 := if st = s.pace.st then s.pace.slip else 0
    let slip := match st with
      | .rebuild => min 12287 (s0 + s.force.rebuild)
      | .trim => min 12287 (s0 + s.force.trim)
      | .steady | .idle => s0
    let count := s.line.records.length
    let written := s.line.records.countP fun x =>
      s.line.amendable x && x.kept && !x.skipped && x.life != .writing && x.life != .emitting
    let repeats (e : Emitted) : Prop :=
      st = .rebuild ∧ 4096 ≤ slip ∧ count < 4000 ∧ s.play.last = some e ∧ (e.quiet = true ∨ 8192 ≤ slip)
    let skips (d : Rec) : Prop :=
      st = .trim ∧ 4096 ≤ slip ∧ 2 ≤ written ∧ (waitsIn s).head? = some d ∧ (d.quiet = true ∨ 8192 ≤ slip)
    let up (n : Nat) : Nat := min 4294967295 (n + 1)
    let uncounted : Prop := t.counters.repeats = s.counters.repeats ∧ t.counters.skips = s.counters.skips
    let moved : Notice := ⟨"!PACE", .pacing, .concealed,
      [("MODE", .word "ENGAGED"), ("STATE", .word (match st with
          | .idle => "IDLE"
          | .steady => "STEADY"
          | .rebuild => "REBUILD"
          | .trim => "TRIM")), ("H", .num s.line.held), ("T", .num s.force.target)]⟩
    let forced (kind : String) (isn : Isn) : Prop :=
      let n : Notice := ⟨"!FORCED", .pacing, .degraded,
        [("KIND", .word kind), ("ISN", .num isn.toNat), ("S", .num (slip - 4096))]⟩
      if st = s.pace.st then Told n s t else ToldInTurn moved n s t
    t.pace.mode = .engaged ∧ t.pace.st = st
      ∧ (st ≠ s.pace.st → Told moved s t)
      ∧ (count < 4088 →
        (∀ e, repeats e → KindGiven .repeated s t ∧ t.pace.slip = slip - 4096
          ∧ t.counters.repeats = up s.counters.repeats ∧ t.counters.skips = s.counters.skips
          ∧ (e.quiet = false → forced "REPEAT" e.isn))
        ∧ (∀ d, skips d → KindGiven .skip s t ∧ t.pace.slip = slip - 4096
          ∧ t.counters.skips = up s.counters.skips ∧ t.counters.repeats = s.counters.repeats
          ∧ (d.quiet = false → forced "SKIP" d.isn))
        ∧ ((∀ e, ¬ repeats e) → (∀ d, ¬ skips d) → KindGiven .normal s t ∧ t.pace.slip = slip ∧ uncounted))
      ∧ (4088 ≤ count → t.pace.slip = slip ∧ uncounted
        ∧ (∀ x, (waitsIn s)[1]? = some x → ShedAsked .full [x.isn] s t)
        ∧ ((waitsIn s)[1]? = none → KindGiven .normal s t))

/-- A line pulse taken with no mark pending, the expiry of a running loss watch and each free-run expiry start the period
with the work of the Pacing Controller (R5, R92). In ENGAGED the pacing state moves by the table of R93, which !PACE
tells; S is 0 after a move and then rises by the rate of the state, holding at 12,287. Below the shed demand guard the
period is a REPEAT in REBUILD when S is at least 4,096, fewer than 4,000 records stand, a slice has been emitted and it
was quiet or S is at least 8,192; a SKIP in TRIM when S is at least 4,096, two kept records are written and the due slice
is quiet or S is at least 8,192; either pays 4,096 and counts once, and !FORCED tells it when the slice was not quiet;
every other period is NORMAL (R93 to R98, R108). From 4,088 records on the follower's shed is asked for, and the period
is NORMAL without a follower (R99). In BYPASS all kept amendable records but the newest HELD one are shed (R105). The
Playout Unit carries the kind out: an emission, a concealed emission, a freeze, an underrun or a repeat, with what it
consumes, commits and hands on (R117 to R122, R133). It tells a freeze by !LATE_FETCH, once for a record, whose error
noticed mark it sets, an underrun by !UNDERRUN, once a run, and a WINDOW cover without its clip slice by !COVER_FALLBACK,
once for the cut noticed last (R118, R119, R126). Its re-plan serves the wanted list (R111 to R113). The order of the
fields of the notices is the model's choice (log entry 24), and so is the place of a notice among those of one pulse (log
entry 13); that a cover read never issued counts as LATE, and that a repeat or a freeze leaves a run of underruns as it
is, are the model's readings (log entries 40 and 42). -/
def Obligations.PacingChoosesThePeriodsKind : Prop :=
  PlayoutCarriesOutTheKind ∧ PlayoutTellsWhatWentWrong ∧ ReplanServesTheWantedList ∧ EngagedPeriodFollowsTheRules
  ∧ BypassPassesTheProgram
  ∧ ∀ s : State, s.phase = .running → s.timer.markPending = false → s.pace.period = none →
    PulseStartsThePeriod .linePulse s
      ∧ (s.timer.watchRuns = true → PulseStartsThePeriod .lossWatchExpiry s)
      ∧ (s.timer.freeRuns = true → PulseStartsThePeriod .freeRunExpiry s)

/-- TARGET sets T in force and stores it as the parameter, clamped to 1 to 3,600 (R100, R101). With HOW=GLIDE, or without
HOW=, it is answered at once, CLAMPED when it was clamped, and the Pacing Controller stays as it is. With HOW=JUMP it is
answered at once with SHED=0 in BYPASS or when H is at most T; otherwise it sends one shed instruction with reason JUMP
naming the H - T oldest kept records at or after A, and waits (R102). -/
def Obligations.TargetSetsTheDepth : Prop :=
  ∀ (s : State) (p : Port) (r : Request) (v : String) (n : Nat), Routed s p r → PacingFree s → r.word = .target →
    numberOf v.toList = some n →
    let T := max 1 (min 3600 n)
    let word : ResultWord := if T = n then .ok else .clamped
    let set (t : State) : Prop :=
      t.force = { s.force with target := T }
        ∧ t.settings = { s.settings with stored := { s.settings.stored with target := T } }
    let named := s.line.records.filter fun x => s.line.amendable x && x.kept
    (r.keys = [("T", v)] ∨ r.keys = [("T", v), ("HOW", "GLIDE")] →
      ∃ t, exec (.targetGlide p) s = .next t ∧ set t ∧ Replied p r word [("T", .num T)] s t
        ∧ Agrees [.force, .settings, .ports] s t)
    ∧ (r.keys = [("T", v), ("HOW", "JUMP")] →
      ∃ t, exec (.targetJump p) s = .next t ∧ set t ∧ Agrees [.force, .settings, .pace, .ports] s t
        ∧ (s.pace.mode = .bypass ∨ s.line.held ≤ T →
            Replied p r word [("T", .num T), ("SHED", .num 0)] s t ∧ t.pace = s.pace)
        ∧ (s.pace.mode = .engaged → T < s.line.held → named ≠ [] →
            t.pace = { s.pace with
              instructions := s.pace.instructions
                ++ [⟨.jump, (named.take (s.line.held - T)).map (·.isn), false⟩]
              waiting := some (.jump p T (s.line.held - T) (decide (T ≠ n))) }))

/-- The number shed reaches the request or the period start that waits for it. A JUMP is answered LATE when fewer were
shed than asked, else CLAMPED or OK, with T= and SHED=; a BYPASS is answered OK with SHED=; and a period start gets its
kind, SHED when a record was shed under FULL, else NORMAL, and hands over its slice (R92, R99, R102, R104, R105). -/
def Obligations.ShedAnswerIsTaken : Prop :=
  ∀ (s : State) (k : Nat) (rest : List ShedCount), s.phase = .running → s.pace.queue = [] →
    (∀ p r T asked clamped, s.pace.answers = ⟨k, false⟩ :: rest → s.pace.waiting = some (.jump p T asked clamped) →
      (s.ports.get p).current = some ⟨r, true⟩ →
      ∃ t, exec .shedAnswer s = .next t ∧ Agrees [.pace, .ports] s t
        ∧ t.pace = { s.pace with answers := rest, waiting := none }
        ∧ Replied p r (if k < asked then .late else if clamped then .clamped else .ok)
            [("T", .num T), ("SHED", .num k)] s t)
    ∧ (∀ p r, s.pace.answers = ⟨k, false⟩ :: rest → s.pace.waiting = some (.bypass p) →
      (s.ports.get p).current = some ⟨r, true⟩ →
      ∃ t, exec .shedAnswer s = .next t ∧ Agrees [.pace, .ports] s t
        ∧ t.pace = { s.pace with answers := rest, waiting := none }
        ∧ Replied p r .ok [("SHED", .num k)] s t)
    ∧ (∀ reason, s.pace.answers = ⟨k, true⟩ :: rest → s.pace.period = some reason →
      ∃ t, exec .shedAnswer s = .next t
        ∧ t.pace = { s.pace with
            answers := rest, period := none, kind := if reason = .full ∧ 1 ≤ k then .shed else .normal }
        ∧ t.pack.handed = s.pack.handed + 1 ∧ t.pack.out = s.pack.out)

/-- ENGAGE in BYPASS sets the mode to ENGAGED and S to 0, and the pacing state to STEADY moved once by the table of R93;
it is answered OK with the state reached, and one !PACE tells the mode and the state. In ENGAGED mode it is answered OK
with the state as it is and changes nothing but its port (R106, R108). The order of the fields of !PACE is the model's choice
(log entry 24). -/
def Obligations.EngagePutsThePartIntoDelay : Prop :=
  ∀ (s : State) (p : Port) (r : Request), Routed s p r → PacingFree s → r.word = .engage → r.keys = [] →
    (s.ports.get p).queue = [] →
    let st := if s.pace.mode = .bypass then movedState .steady s.line.held s.force.target s.force.band else s.pace.st
    ∃ t, exec (.engage p) s = .next t
      ∧ t.pace = (if s.pace.mode = .bypass then { s.pace with mode := .engaged, st := st, slip := 0 } else s.pace)
      ∧ Replied p r .ok [("STATE", .word st.text)] s t
      ∧ (s.pace.mode = .engaged → Agrees [.ports] s t ∧ OtherPortsKept p s t)
      ∧ (s.pace.mode = .bypass → Agrees [.pace, .ports, .counters] s t
          ∧ Told ⟨"!PACE", .pacing, .concealed,
              [("MODE", .word "ENGAGED"), ("STATE", .word st.text), ("H", .num s.line.held),
                ("T", .num s.force.target)]⟩ s t)

/-- BYPASS in ENGAGED mode sets the mode to BYPASS, the pacing state to IDLE and S to 0, revokes every listed cut whose
answer is not pending, and clears the unlisted span. When kept records stand at or after A besides the newest HELD one, it
sends one shed instruction with reason BYPASS naming them all, and waits; otherwise it is answered OK with SHED=0. In
BYPASS it is answered OK with SHED=0 and changes nothing but its port (R88, R104). -/
def Obligations.BypassTakesThePartOutOfDelay : Prop :=
  ∀ (s : State) (p : Port) (r : Request), Routed s p r → PacingFree s → r.word = .bypass → r.keys = [] →
    (s.ports.get p).sending ≠ none → (s.cuts.cuts.map (·.id)).Nodup →
    let spared := (s.line.records.filter fun x => x.life = .held).getLast?.map (·.isn)
    let named := (s.line.records.filter fun x =>
      s.line.amendable x && x.kept && decide (spared ≠ some x.isn)).map (·.isn)
    (s.pace.mode = .bypass →
      ∃ t, exec (.bypass p) s = .next t ∧ Agrees [.ports] s t ∧ OtherPortsKept p s t
        ∧ Replied p r .ok [("SHED", .num 0)] s t)
    ∧ (s.pace.mode = .engaged →
      ∃ t, exec (.bypass p) s = .next t ∧ Agrees [.pace, .cuts, .ports, .counters] s t
        ∧ t.pace.mode = .bypass ∧ t.pace.st = .idle ∧ t.pace.slip = 0
        ∧ t.cuts.cuts = s.cuts.cuts.filter (fun c => c.pend ≠ none) ∧ t.cuts.span = none
        ∧ (named = [] → Replied p r .ok [("SHED", .num 0)] s t ∧ t.pace.waiting = none)
        ∧ (named ≠ [] → t.pace.waiting = some (.bypass p)
            ∧ t.pace.instructions = s.pace.instructions ++ [⟨.bypass, named, false⟩]))

/-! ## Chapter 6: rendering -/

/-- Two channels are of one class: both PROGRAM, both ZERO or both TONE, or CLIP of one window with the next clip slice
(R127). -/
def sameClass (x y : ChanClass) : Prop :=
  (x = y ∧ (x = .program ∨ x = .zero ∨ x = .tone)) ∨ ∃ w i, x = .clip w (some i) ∧ y = .clip w (some (i + 1))

/-- The class of some channel differs (R127, R128). -/
def someDiffer (x y : List ChanClass) : Prop := ∃ (i : Nat) (a b : ChanClass), x[i]? = some a ∧ y[i]? = some b ∧ ¬ sameClass a b

/-- The sample of a run of frames at an index of a channel. -/
def sampleAt (frames : List Frame) (i channel : Nat) : Int := ((frames[i]?.getD [])[channel]?).getD 0

/-- The planned join, the actual join, and the treatments of tail and head that they bring (R127 to R129). That records lie
between two others is judged by their ISNs (log entry 39). -/
def JoinsFollowTheTables : Prop :=
  (∀ (origin : Isn) (hidden noAudio : Bool) (classes : List ChanClass) (a : Ahead),
    let plan := plannedJoin origin hidden noAudio classes (some a)
    let gap : Prop := 1 < (a.isn - origin).toNat ∨ hidden = true ∨ noAudio = true ∨ a.noAudio = true
    (gap → plan = some .gap) ∧ (¬ gap → someDiffer classes a.classes → plan = some .edge)
      ∧ (¬ gap → ¬ someDiffer classes a.classes → plan = some .continuous))
  ∧ (∀ (x : OutInfo) (y : Arrival),
    let join := actualJoin (some x) y
    let gap : Prop := x.plan = some .gap ∨ x.hidden = true ∨ y.hidden = true ∨ x.noAudio = true ∨ y.body.noAudio = true
      ∨ (y.spliced = false ∧ 1 < (y.origin - x.origin).toNat) ∨ (y.spliced = true ∧ y.successor = none)
    actualJoin none y = .gap ∧ (gap → join = .gap) ∧ (¬ gap → y.spliced = true → join = .splice)
      ∧ (¬ gap → y.spliced = false → someDiffer x.classes y.body.classes → join = .edge)
      ∧ (¬ gap → y.spliced = false → ¬ someDiffer x.classes y.body.classes → join = .continuous))
  ∧ (∀ x y : ChanClass,
    (sameClass x y → edgeTail x y = .none ∧ ∀ treated, edgeHead x y treated = .none)
    ∧ (x = .program → y = .zero → edgeTail x y = .silence
        ∧ edgeHead x y true = .none ∧ edgeHead x y false = .silence)
    ∧ (x = .program → y = .tone → edgeTail x y = .tone ∧ edgeHead x y true = .none ∧ edgeHead x y false = .silence)
    ∧ (x = .zero → y = .program → edgeTail x y = .none ∧ ∀ treated, edgeHead x y treated = .silence)
    ∧ (x = .tone → y = .program → edgeTail x y = .none ∧ ∀ treated, edgeHead x y treated = .tone)
    ∧ (¬ sameClass x y → (x = .program → y ≠ .zero ∧ y ≠ .tone) → (y = .program → x ≠ .zero ∧ x ≠ .tone) →
        edgeTail x y = .silence ∧ ∀ treated, edgeHead x y treated = .silence))
  ∧ (∀ (c level : Nat) (tails : List FadeOf) (frames : List Frame) (i channel : Nat) (f : Frame) (v : Int),
    frames[i]? = some f → f[channel]? = some v → c ≤ frames.length →
    sampleAt (treatTail c (tailSample c level tails) frames) i channel =
      if i < frames.length - c then v
      else
        let k := i - (frames.length - c)
        match (tails[channel]?).getD .none with
        | .none => v
        | .silence => fade c v 0 k
        | .tone => fade c v (toneAt level (k + 47 * c)) k)
  ∧ (∀ (c level phase : Nat) (join : Join) (x : OutInfo) (y : Arrival) (n : Body) (i channel : Nat) (f : Frame) (v : Int),
    y.body.frames[i]? = some f → f[channel]? = some v → y.successor = some n →
    sampleAt (headTreated c level phase join (some x) y) i channel =
      if c ≤ i then v
      else match join with
        | .gap => fade c 0 v i
        | .splice => fade c (sampleAt n.frames i channel) v i
        | .continuous => v
        | .edge => match ((edgeHeads (some x) y.body)[channel]?).getD .none with
          | .none => v
          | .silence => fade c 0 v i
          | .tone => fade c (toneAt level (phase + i)) v i)

/-- The faded sample is the floor of a (C - i) + b i + C/2 over C, so a fade begins at its source and stays between its two
samples, whatever they are (R124); the manual's own example gives 700. The tone repeats after 48 samples, its second half
is the first half reversed in sign, it is 0 at phases 0 and 24 and exactly the level at phase 12, it never exceeds the
level, and at the default level it takes the values of the manual's table (R125). The planned join, the actual join and
their treatments of the tail and the head, channel by channel, are those of the tables (R127 to R129). -/
def Obligations.FadeAndToneKeepTheirShape : Prop :=
  (∀ (c : Nat) (a b : Int) (i : Nat), i < c →
    let sum : Int := a * ((c : Int) - i) + b * i + ((c / 2 : Nat) : Int)
    fade c a b i * c ≤ sum ∧ sum < fade c a b i * c + c
      ∧ fade c a b 0 = a ∧ min a b ≤ fade c a b i ∧ fade c a b i ≤ max a b)
  ∧ fade 64 1000 (-200) 16 = 700
  ∧ (∀ level k : Nat, toneAt level (k + 48) = toneAt level k
      ∧ (toneAt level (k + 24) = - toneAt level k)
      ∧ toneAt level 0 = 0 ∧ toneAt level 24 = 0 ∧ toneAt level 12 = level
      ∧ (toneAt level k).natAbs ≤ level)
  ∧ [0, 4, 8, 12, 24, 28, 36].map (toneAt 838861) = [0, 419431, 726475, 838861, 0, -419431, -838861]
  ∧ JoinsFollowTheTables

/-- The picture, the captions and the flags of an output slice, by what the period brings (R131 to R133). -/
def PictureAndCaptionsAreChosen : Prop :=
  ∀ (s : State) (kind : PeriodKind) (ahead next skipped : Option Rec),
    let made (work : PeriodWork) : Rendered := (makeSlice s kind work ahead next skipped).slice
    let held : Bytes := s.play.held.getD []
    let before : Bytes := match skipped with
      | some k => match k.fields.captions, s.play.phaseOf k.isn with
        | true, some (.ready _ e) => e.captions
        | _, _ => []
      | none => []
    (∀ (r : Rec) (e : Essence),
      (∀ n p clip, r.fields.disp = .cover (.window n) true → s.play.coverOf r.isn = some (.done p clip) →
        (made (.emit r e)).video = if clip.video = [] then held else clip.video)
      ∧ (∀ source, r.fields.disp = .cover source true →
          (∀ n p clip, source = .window n → s.play.coverOf r.isn ≠ some (.done p clip)) →
          (made (.emit r e)).video = held)
      ∧ ((∀ source, r.fields.disp ≠ .cover source true) → (made (.emit r e)).video = if e.video = [] then held else e.video)
      ∧ (made (.emit r e)).captions = (before ++ if r.fields.captions then e.captions else []).take 2048
      ∧ ((made (.emit r e)).covered = true ↔
          (∃ source video, r.fields.disp = .cover source video) ∨ ∃ mask, r.fields.disp = .mute mask))
    ∧ (∀ work, (∀ r e, work ≠ .emit r e) → (made work).video = held ∧ (made work).captions = [])

/-- What a covered or muted channel shows does not depend on the program's audio: a COVER body is the same whatever the
record's essence, and of a MUTE body a masked channel is 0 throughout, an unmasked one the program's own sample
(R123). The picture is the record's, the clip's or the held video by the table of R131, and the captions are the record's
and a skipped slice's, each under its captions field, up to 2,048 bytes; a repeat, a freeze, an underrun and a concealed
emission carry the held video and no captions (R131, R132). COVERED is set for a COVER or MUTE that is emitted (R133). -/
def Obligations.CoveredAndMutedAudioStaysOffTheBody : Prop :=
  PictureAndCaptionsAreChosen ∧
  ∀ (src : Source) (length level phase : Nat),
    (∀ source video e e', src.fields.disp = .cover source video →
      ({ src with essence := e }).body length level phase = ({ src with essence := e' }).body length level phase)
    ∧ (∀ mask audio, src.hidden = false → src.fields.disp = .mute mask → src.essence.audio = some audio →
      ∀ i c : Nat, i < length → c < 16 →
        ((src.body length level phase).sample i c =
          if mask.getLsbD c then 0 else (((audioFrames length audio)[i]?.getD [])[c]?).getD 0))

/-! ## Chapter 7: Media Out -/

/-- The thirty bytes of the header of a packet of a slice, field by field (R13, R16, R137, R139, R141 to R144): the format
mark; stream id and kind; FIRST at offset 0, LAST where the run ends, and the slice's four output-only flags, bits 1 and 0
being zero; the sequence number; the payload length; the slice timestamp; the offset; the kind total; the origin ISN; and the
timecode, or four bytes 0xFF. The payload follows. -/
def HeaderShows (o : OutSlice) (seq : BitVec 16) (kind : Kind) (offset total : Nat) (payload packet : Bytes) : Prop :=
  let byte (i : Nat) : Nat := (packet.getD i 0).toNat
  let word (i : Nat) : Nat := 256 * byte i + byte (i + 1)
  let long (i : Nat) : Nat := 65536 * word i + word (i + 2)
  let bit (b : Bool) (n : Nat) : Nat := if b then n else 0
  packet.length = 30 + payload.length ∧ packet.drop 30 = payload
    ∧ word 0 = 0xD516
    ∧ byte 2 = 16 * o.stream + (match kind with
        | .video => 1
        | .audio => 2
        | .caption => 3)
    ∧ byte 3 = bit (decide (offset = 0)) 128 + bit (decide (offset + payload.length = total)) 64
        + bit o.slice.repeatFlag 32 + bit o.slice.seam 16 + bit o.slice.covered 8 + bit o.slice.concealed 4
    ∧ word 4 = seq.toNat ∧ word 6 = payload.length ∧ long 8 = o.ts.toNat ∧ long 12 = offset ∧ long 16 = total
    ∧ long 20 = o.slice.origin.toNat
    ∧ (∀ tc : Timecode, o.slice.tc = some tc → tc.hours < 256 → tc.minutes < 256 → tc.seconds < 256 → tc.frames < 256 →
        byte 24 = tc.hours ∧ byte 25 = tc.minutes ∧ byte 26 = tc.seconds ∧ byte 27 = tc.frames)
    ∧ (o.slice.tc = none → ∀ i, 24 ≤ i → i < 28 → byte i = 255)

/-- A slice that is handed over takes the handover count as its number, which rises by one, its number times the slice length
L, modulo 2³², as its timestamp, and the stream id and payload size in force; none of it has been sent, and it stands at the
back of the send queue (R16, R135 to R137). -/
def HandoverNumbersTheSlice : Prop :=
  ∀ (r : Rendered) (s : State),
    let t := handOver r s
    t.pack.handed = s.pack.handed + 1
      ∧ ∃ o, t.pack.queue.getLast? = some o ∧ o.slice = r ∧ o.number = s.pack.handed
        ∧ o.ts.toNat = (o.number.toNat * (48000 / s.force.rate)) % 4294967296
        ∧ o.stream = s.force.outStream ∧ o.payload = s.force.payload ∧ o.sent = 0

/-- Media Out takes the next packet of the front slice: it is the packet with the number of those sent, under the next
sequence number, which rises by one; the slice stays at the front until its last packet has been sent, and then leaves the
queue; slices behind it wait (R138, R139, R143, R146). Its header bytes show, each in its place, the stream id and kind,
FIRST and LAST of its run, the slice's REPEAT, SEAM, COVERED and CONCEALED, the sequence number, length, offset and total,
the slice timestamp, the origin ISN and the timecode; and the timestamp is the slice number times L, as it was handed over
(R13, R16, R136, R137, R141, R142, R144). -/
def Obligations.PacketSentTakesTheNextPacket : Prop :=
  HandoverNumbersTheSlice ∧
  ∀ (s : State) (o : OutSlice) (rest : List OutSlice), s.phase = .running → s.pack.queue = o :: rest →
    o.sent < packetCount o.payload o.slice.runs → 0 < o.payload →
    ∃ t packet, exec .packetSent s = .next t
      ∧ o.packet s.pack.nextSeq o.sent = some packet
      ∧ (o.stream < 16 → o.payload ≤ 8192 → (∀ x ∈ o.slice.runs, x.2.length < 4294967296) →
          ∃ kind offset total payload, packetAt o.payload o.slice.runs o.sent = some (kind, offset, total, payload)
            ∧ HeaderShows o s.pack.nextSeq kind offset total payload packet)
      ∧ t.pack = { s.pack with
          nextSeq := s.pack.nextSeq + 1
          wire := some packet
          queue := if o.sent + 1 = packetCount o.payload o.slice.runs then rest else { o with sent := o.sent + 1 } :: rest }
      ∧ Agrees [.pack] s t

/-- The runs of a slice (R138): VIDEO, AUDIO and CAPTION in that order, those of at least one byte; and the audio run
(R140): the frames in time order, of each its samples in channel order, each in a 4-byte big-endian container, the sample
in the three low-order bytes in two's complement and its sign extension in the high-order byte. -/
def RunsFollowTheSlice : Prop :=
  ∀ r : Rendered, ∃ audio : Bytes,
    r.runs = [(Kind.video, r.video), (.audio, audio), (.caption, r.captions)].filter (fun x => 1 ≤ x.2.length)
    ∧ ((∀ f ∈ r.audio, f.length = 16) → audio.length = 64 * r.audio.length
      ∧ ∀ (i : Nat) (f : Frame) (c : Nat) (v : Int), r.audio[i]? = some f → f[c]? = some v →
        let byte (k : Nat) : Nat := (audio.getD (64 * i + 4 * c + k) 0).toNat
        v < 8388608 → -8388608 ≤ v →
          byte 0 = (if v < 0 then 255 else 0)
          ∧ (byte 1 * 65536 + byte 2 * 256 + byte 3 : Int) = if v < 0 then v + 16777216 else v)

/-- The packets of a slice carry its runs whole: every packet number below their count has a packet, its payload is 1 to P
bytes at an offset that is a multiple of P, and the payloads of one kind, in order, are that kind's bytes (R138, R139). The
runs are those of VIDEO, AUDIO and CAPTION, in that order, that have at least one byte; and the audio run holds the rendered
samples frame by frame and channel by channel, 64 bytes a frame, each sign-extended in its 4-byte big-endian container (R138,
R140). -/
def Obligations.PacketsCarryTheRunsWhole : Prop :=
  RunsFollowTheSlice ∧
  ∀ (r : Rendered) (p : Nat), 0 < p →
    let packets := (List.range (packetCount p r.runs)).map (packetAt p r.runs)
    (∀ k, k < packetCount p r.runs → ∃ kind offset total payload,
      packetAt p r.runs k = some (kind, offset, total, payload)
        ∧ 1 ≤ payload.length ∧ payload.length ≤ p ∧ p ∣ offset ∧ offset + payload.length ≤ total
        ∧ (kind, total) ∈ r.runs.map fun x => (x.1, x.2.length))
    ∧ (∀ kind bytes, (kind, bytes) ∈ r.runs →
      (packets.filterMap fun x => x.bind fun y => if y.1 = kind then some y.2.2.2 else none).flatten = bytes)

/-! ## Chapter 8: the store -/

/-- The queue of the Arbiter that a request belongs to (R150). -/
def queueFor (st : Store) : StoreJob → List StoreReq
  | .fetch true _ _ _ _ _ _ _ => st.demand
  | .ingestWrite _ _ _ => st.ingest
  | .coverRead _ _ _ _ => st.cover
  | .loadWrite _ _ _ _ => st.load
  | .fetch false _ _ _ _ _ _ _ => st.fetch

/-- What a fetch that has ended does at the Playout Unit, for a slot that waits for it under its edit count (R114): DONE
makes the slot READY with the data, the due slice's, and that of a prefetch that is not due yet while its record is among
those served. A FAULT makes the slot FAULTED in the DEMAND class; of a prefetch that is not due yet it frees the slot and
puts the ISN on the prefetch-fault list; and of a prefetch whose slice has become due meanwhile it gives way to a demand
fetch at once (R113). -/
def FetchEndsAtItsSlot : Prop :=
  ∀ (s : State) (a : Access) (asked demand : Bool) (isn : Isn) (page slot i : Nat) (edit : Byte) (video : Nat) (audio : Bool)
    (captions : Nat) (r : Rec) (report : StoreReport), LineOk s → PlayOk s → s.phase = .running →
    s.store.outstanding = none → s.store.flight = some a → a.req.job = .fetch asked isn page edit slot video audio captions →
    s.play.slotOf isn = some i → s.play.phaseAt i = .fetching demand edit → r ∈ s.line.records → r.isn = isn →
    r.life ≠ .writing →
    let waits := s.line.records.filter fun x => x.kept && x.life != .emitting && !x.skipped
    let begun := s.line.records.filter fun x => decide (x.life = .emitting) && !x.ended
    let faulted : Prop := report = .fault ∨ ((∃ f, report = .retry f) ∧ 3 ≤ a.req.retries)
    ∃ t, exec (.storeCompletion a.grant report) s = .next t
      ∧ (∀ units data, report = .done units → a.data = some data → waits.head? = some r →
          t.play.phaseOf isn = some (.ready edit data))
      ∧ (∀ units data, report = .done units → a.data = some data → demand = false → waits.head? ≠ some r →
          r ∈ waits.take (1 + s.force.prefetch) → begun.length + (waits.take (1 + s.force.prefetch)).length ≤ 4 →
          isn ∉ s.play.faults → t.play.phaseOf isn = some (.ready edit data))
      ∧ (faulted → demand = true → waits.head? = some r → t.play.phaseOf isn = some .faulted)
      ∧ (faulted → demand = false → waits.head? ≠ some r → r ∈ waits.take (1 + s.force.prefetch) →
          t.play.slotOf isn = none ∧ isn ∈ t.play.faults)
      ∧ (∀ home, faulted → demand = false → waits.head? = some r → r.page = some home →
          t.play.phaseOf isn = some (.fetching true r.edit) ∧ isn ∉ t.play.faults
            ∧ ∃ q ∈ t.store.requests, ∃ place,
              q.job = .fetch true isn home r.edit place r.videoBytes r.audio r.captBytes)

/-- RETRY and FAULT reported together are taken as the RETRY alone. With fewer than three retries had, the request is put
back at the head of its queue, one retry is counted, no fault is, and nothing is handed on; a retried demand fetch is
granted again at once, and a request of another class stands at the head of its queue when another has been granted before
it. When it is granted once more, a FAULT of it is counted and a DONE of it is not. With three had, the request ends in
FAULT, counted once, and the notice of a demand fetch tells RETRY_EXHAUSTED; the access was not carried out, so the stacked
DRAM is as it was, also for a write (R155, R156, R157). What its end does at the
slot that waits for it is the table of R114. -/
def Obligations.RetryIsHonouredBeforeAFault : Prop :=
  FetchEndsAtItsSlot ∧
  ∀ (s : State) (a : Access), s.phase = .running → s.store.outstanding = none → s.store.flight = some a →
    let told (reason : String) (t : State) : Prop :=
      ∀ isn page edit slot video audio captions r,
        a.req.job = .fetch true isn page edit slot video audio captions → s.line.find isn = some r →
        r.kept = true → r.edit = edit → r.noticed = false →
        Told ⟨"!STORE", .faults, .degraded,
          [("ISN", .isn isn), ("CLASS", .word "DEMAND"), ("OUTCOME", .word "FAULT"), ("REASON", .word reason)]⟩ s t
    exec (.storeCompletion a.grant (.retry true)) s = exec (.storeCompletion a.grant (.retry false)) s
    ∧ (a.req.retries < 3 → ∃ t, exec (.storeCompletion a.grant (.retry true)) s = .next t
      ∧ t.counters = { s.counters with retries := min 4294967295 (s.counters.retries + 1) }
      ∧ t.store.mem = s.store.mem ∧ Agrees [.store, .counters] s t
      ∧ (∀ isn page edit slot video audio captions,
          a.req.job = .fetch true isn page edit slot video audio captions →
          ∃ b, t.store.flight = some b ∧ b.req = { a.req with retries := a.req.retries + 1 }
            ∧ b.grant = s.store.grants + 1 ∧ t.store.grants = s.store.grants + 1 ∧ b.grantedAt = s.now)
      ∧ (ArrivalsOk s →
          let back : StoreReq := { a.req with retries := a.req.retries + 1 }
          (∃ b, t.store.flight = some b ∧ b.req = back)
            ∨ (queueFor t.store a.req.job).head? = some { back with passed := back.passed + 1 }))
    ∧ (∃ t, exec (.storeCompletion a.grant .fault) s = .next t
      ∧ t.counters.faults = min 4294967295 (s.counters.faults + 1) ∧ told "UNCORRECTABLE" t)
    ∧ (∀ units, ∃ t, exec (.storeCompletion a.grant (.done units)) s = .next t ∧ t.counters.faults = s.counters.faults)
    ∧ (3 ≤ a.req.retries → ∃ t, exec (.storeCompletion a.grant (.retry true)) s = .next t
      ∧ t.counters.faults = min 4294967295 (s.counters.faults + 1) ∧ t.counters.retries = s.counters.retries
      ∧ t.store.mem = s.store.mem ∧ t.draws = s.draws ∧ told "RETRY_EXHAUSTED" t)

/-- A fourth RETRY, a FAULT and the 2 ms limit each end a cover read in FAULT, counted once as a store fault: its slot's
read state is FAILED with reason FAULT when it was still awaited and not cleared, CLEARED when it was cleared (R126, R155,
R156, R157, R158). -/
def Obligations.CoverReadFaultsAreAbsorbed : Prop :=
  ∀ (s : State) (a : Access) (isn : Isn) (window block slot i index : Nat) (c : Instr), s.phase = .running →
    s.store.outstanding = none → s.store.flight = some a → a.req.job = .coverRead isn window block slot →
    s.play.slotOf isn = some i → s.play.coverAt i = .reading index →
    (c = .accessTimeout ∨ c = .storeCompletion a.grant .fault
      ∨ ((∃ f, c = .storeCompletion a.grant (.retry f)) ∧ 3 ≤ a.req.retries)) →
    ∃ t, exec c s = .next t
      ∧ t.counters = { s.counters with faults := min 4294967295 (s.counters.faults + 1) }
      ∧ t.play.coverAt i = (if a.req.cleared then .cleared index else .failed .fault (some index))
      ∧ t.store.mem = s.store.mem ∧ t.line = s.line

/-- A report under a grant number that is not that of the access at the store is late and is discarded: nothing
changes (R158). The report of an access left from before a restart is discarded too, but clears the mark, and granting
goes on: the head of the demand queue is granted, and no request is left waiting at an idle store (R161). -/
def Obligations.LateCompletionIsDiscarded : Prop :=
  ∀ (s : State) (grant : Nat) (report : StoreReport),
    (endedBy s (some grant) = none → exec (.storeCompletion grant report) s = .next s)
    ∧ (∀ a, s.phase = .running → s.store.outstanding = some a → a.grant = grant →
      ∃ t, exec (.storeCompletion grant report) s = .next t
        ∧ t.store.outstanding = none
        ∧ t.counters = s.counters ∧ t.play = s.play ∧ t.line = s.line ∧ t.ingest = s.ingest ∧ t.lane = s.lane
        ∧ Agrees [.store, .draws] s t
        ∧ (t.store.flight = none →
            t.store.demand = [] ∧ t.store.ingest = [] ∧ t.store.cover = [] ∧ t.store.load = [] ∧ t.store.fetch = [])
        ∧ (∀ q qs, s.store.flight = none → s.store.demand = q :: qs →
            ∃ b, t.store.flight = some b ∧ b.req = q ∧ b.grant = s.store.grants + 1))

/-- The cover reads issued against a window's earlier contents are settled: those that are queued leave their queue and
are CLEARED where they were awaited, and one in flight gets its cleared mark (R168). -/
def ReadsSettled (n : Nat) (s t : State) : Prop :=
  t.store.cover = s.store.cover.filter (fun q => !q.job.reads n)
    ∧ t.store.flight = s.store.flight.map (fun a =>
        if a.req.job.reads n then { a with req := { a.req with cleared := true } } else a)
    ∧ (∀ q ∈ s.store.cover, ∀ isn block slot i x, q.job = .coverRead isn n block slot →
        s.play.slotOf isn = some i → s.play.coverAt i = .reading x → t.play.coverAt i = .cleared x)

/-- WINDOW, CLEAR and LOAD of a window, 1 to 8, by the tables of their checks. A definition is BUSY over a LOADING window
and an OVERLAP over another defined window's blocks; else it is OK with the entry as it then stands: over the same blocks
only the loop field is set, otherwise the entry becomes EMPTY and the reads of a READY or FAULTY one are settled (R163,
R164). CLEAR is NOT-FOUND for an undefined window, BUSY for a LOADING one, and leaves a READY or FAULTY one EMPTY or
undefined, with its reads settled; on an EMPTY one it is OK and changes nothing, but with UNDEFINE=YES the entry becomes
undefined, which is the model's choice (R163, R167, log entry 57). LOAD is NOT-FOUND, BAD for the
program's stream, BUSY while the lane is not IDLE, BAD for a count outside 1 to the window's length, and else STARTED: the
window is LOADING and the lane waits for its stream (R37, R165). Whatever is changed is settled by R168. -/
def Obligations.WindowRequestsFollowTheirChecks : Prop :=
  ∀ (s : State) (p : Port) (r : Request) (n : Nat), Routed s p r → s.store.windows.length = 8 →
    let w := s.store.window n
    let becomes (x : WindowEntry) (t : State) : Prop := t.store.windows = s.store.windows.set (n - 1) x
    (∀ d, r.word = .window → r.windowDef = some (n, d) →
      let taken : Prop := ∃ i v e, s.store.windows[i]? = some v ∧ i + 1 ≠ n ∧ v.defn = some e
        ∧ d.base < e.base + e.length ∧ e.base < d.base + d.length
      let same : Prop := ∃ e, w.defn = some e ∧ e.base = d.base ∧ e.length = d.length
      let reply (x : WindowEntry) : List Field :=
        [("W", .num n), ("BASE", .num d.base), ("LENGTH", .num d.length),
          ("LOOP", .word (if d.loop then "YES" else "NO")), ("CLIPS", .num x.clips), ("STATE", .word x.st.text)]
      ∃ t, exec (.window p) s = .next t ∧ Agrees [.store, .play, .ports] s t ∧ OtherPortsKept p s t
        ∧ (w.st = .loading → OnlyReplied p r .busy [] s t)
        ∧ (w.st ≠ .loading → taken → OnlyReplied p r .overlap [] s t)
        ∧ (w.st ≠ .loading → ¬ taken → same →
          Replied p r .ok (reply w) s t ∧ becomes { w with defn := some d } t ∧ t.play = s.play
            ∧ t.store.cover = s.store.cover ∧ t.store.flight = s.store.flight)
        ∧ (w.st ≠ .loading → ¬ taken → ¬ same →
          Replied p r .ok (reply ⟨some d, 0, .empty⟩) s t ∧ becomes ⟨some d, 0, .empty⟩ t
            ∧ (w.defn ≠ none → (w.st = .ready ∨ w.st = .faulty) → ReadsSettled n s t)))
    ∧ (∀ undefine, r.word = .clear → r.clearKeys = some (n, undefine) →
      ∃ t, exec (.clear p) s = .next t ∧ Agrees [.store, .play, .ports] s t ∧ OtherPortsKept p s t
        ∧ (w.defn = none → OnlyReplied p r .notFound [] s t)
        ∧ (w.defn ≠ none → w.st = .loading → OnlyReplied p r .busy [] s t)
        ∧ (∀ d, w.defn = some d → w.st ≠ .loading →
          Replied p r .ok
              [("W", .num n), if undefine then ("DEFINED", .word "NO") else ("STATE", .word "EMPTY")] s t
          ∧ (w.st ≠ .empty → ReadsSettled n s t ∧ becomes ⟨if undefine then none else some d, 0, .empty⟩ t)
          ∧ (w.st = .empty → t.play = s.play ∧ t.store.cover = s.store.cover ∧ t.store.flight = s.store.flight
              ∧ (undefine = false → t.store = s.store) ∧ (undefine = true → becomes ⟨none, 0, .empty⟩ t))))
    ∧ (∀ stream count, r.word = .load → r.loadKeys = some (n, stream, count) →
      ∃ t, exec (.load p) s = .next t ∧ Agrees [.store, .play, .lane, .ports] s t ∧ OtherPortsKept p s t
        ∧ (w.defn = none → OnlyReplied p r .notFound [] s t)
        ∧ (∀ d, w.defn = some d →
          (stream = s.force.stream → OnlyReplied p r .bad [] s t)
          ∧ (stream ≠ s.force.stream → s.lane.st ≠ .idle → OnlyReplied p r .busy [] s t)
          ∧ (stream ≠ s.force.stream → s.lane.st = .idle → (count < 1 ∨ d.length < count) →
              OnlyReplied p r .bad [] s t)
          ∧ (stream ≠ s.force.stream → s.lane.st = .idle → 1 ≤ count → count ≤ d.length →
              Replied p r .started [("W", .num n), ("STREAM", .num stream), ("COUNT", .num count)] s t
                ∧ becomes ⟨some d, 0, .loading⟩ t ∧ ReadsSettled n s t
                ∧ t.lane.st = .waiting ∧ t.lane.window = n ∧ t.lane.stream = stream ∧ t.lane.count = count
                ∧ t.lane.base = d.base ∧ t.lane.leadIn = none ∧ t.lane.positions = [] ∧ t.lane.clip = 0
                ∧ t.lane.faultMark = false)))

/-! ## Chapter 9: cue watches -/

/-- A watch after its test against a record: matched last is the outcome, and a hit counts and makes a ONCE watch SPENT
(R170, R173). -/
def watchTested (w : Watch) (isn : Isn) (tc : Option Timecode) : Watch :=
  let matched : Bool := match w.cue with
    | .isn n => decide (n = isn)
    | .tc c => decide (tc = some c)
  let hit : Bool := matched && (!w.every || !w.matchedLast)
  { w with
    matchedLast := matched
    hits := if hit then min 65535 (w.hits + 1) else w.hits
    spent := w.spent || (hit && !w.every) }

/-- A test of the watch is a hit (R173). -/
def watchHits (w : Watch) (isn : Isn) (tc : Option Timecode) : Prop :=
  (watchTested w isn tc).matchedLast = true ∧ (w.every = false ∨ w.matchedLast = false)

/-- The !WATCH of a hit (R177). -/
def watchTold (h : Hit) (result : String) (fields : List Field) (sev : Severity) : Notice :=
  ⟨"!WATCH", .watch, sev,
    [("ISN", .num h.isn.toNat), ("W", .num h.watch),
      ("POINT", .word (match h.point with
        | .ingest => "INGEST"
        | .playout => "PLAYOUT")),
      ("DO", .word (match h.act with
        | .notify => "NOTIFY"
        | .markIn _ _ => "MARK-IN"
        | .markOut => "MARK-OUT"
        | .dump => "DUMP"))]
      ++ (match h.cue with
        | .tc c => [("TC", .tc c)]
        | .isn _ => [])
      ++ [("RESULT", .word result)] ++ fields ++ if h.spent then [("SPENT", .word "YES")] else []⟩

/-- One watch is tested against a record (R173 to R176, R178). A MARK-OUT hit ends the automation station's latest
open-ended cut, and a DUMP hit that finds 32 cuts listed is carried out unlisted, through the hit ISN. -/
def WatchIsTested : Prop :=
  ∀ (s : State) (point : WatchPoint) (isn : Isn) (tc : Option Timecode) (n : Nat) (w : Watch), 1 ≤ n →
    s.cuts.watches[n - 1]? = some (some w) →
    let t := testWatch point isn tc s n
    let w' := watchTested w isn tc
    let h : Hit := ⟨n, isn, point, w.act, w.cue, w'.spent⟩
    let watches := s.cuts.watches.set (n - 1) (some w')
    let only (result : String) (sev : Severity) : Prop :=
      t.cuts = { s.cuts with watches := watches } ∧ Told (watchTold h result [] sev) s t ∧ Agrees cutTouches s t
    let entered (first : Isn) (last : Option Isn) (target : Option Target) (action : CutAction) (captions : Bool) : Prop :=
      let count := through first (match last with
        | some o => if isAfter s.cuts.head o then o else s.cuts.head
        | none => s.cuts.head)
      count ≠ 0 → ∃ c : Cut, t.cuts.cuts = s.cuts.cuts ++ [c] ∧ c.station = 0 ∧ c.level = s.force.autoLevel
        ∧ c.action = action ∧ c.captions = captions ∧ c.first = first ∧ c.last = last ∧ c.target = target
        ∧ c.pend = some .entry ∧ t.cuts.watches = watches
        ∧ t.cuts.awaiting = some ⟨.hit h, .entry c.id, first, count, last.isNone, false⟩
        ∧ ∃ u, t.cuts.update = some u ∧ u.first = first ∧ u.count = count
    (w.spent = true ∨ w.point ≠ point → t = s)
    ∧ (w.spent = false → w.point = point →
      (¬ watchHits w isn tc → t = { s with cuts := { s.cuts with watches := watches } })
      ∧ (watchHits w isn tc → w.act = .notify → only "HIT" .concealed)
      ∧ (watchHits w isn tc → w.act ≠ .notify → s.cuts.awaiting ≠ none ∨ s.cuts.queue ≠ [] →
          t = { s with cuts := { s.cuts with watches := watches, queue := s.cuts.queue ++ [.hit h] } })
      ∧ (watchHits w isn tc → s.cuts.awaiting = none → s.cuts.queue = [] →
        (w.act = .markOut → (∀ c ∈ s.cuts.cuts, c.station ≠ 0 ∨ c.last ≠ none ∨ c.pend = some .revoke) →
          only "NOT-FOUND" .attention)
        ∧ (∀ c, w.act = .markOut →
          (s.cuts.cuts.filter fun c => openEnded c && decide (c.station = 0)).getLast? = some c →
          let out : Isn := isn + BitVec.ofNat 32 s.force.postRoll
          let named (key : String) : List Field := [("CUT", .num c.id), (key, .num out.toNat)]
          t.cuts.watches = watches ∧ Agrees cutTouches s t
            ∧ (isAfter out s.cuts.head = true →
              t.cuts.cuts = s.cuts.cuts.map (fun x => if x.id = c.id then { c with target := some (.isn out) } else x)
                ∧ Told (watchTold h "OK" (named "TARGET") .concealed) s t)
            ∧ (isAfter out s.cuts.head = false →
              Told (watchTold h "OK" (named "OUT") .concealed) s t
                ∧ (if isAfter s.cuts.boundary out then t.cuts.cut c.id = none
                  else t.cuts.cut c.id = some { c with
                    last := some out, target := none
                    st := if isAfter s.cuts.boundary c.first then .active
                      else if c.st = .opened then .armed else c.st })))
        ∧ ((w.act = .dump ∨ ∃ action captions, w.act = .markIn action captions) → s.pace.mode = .bypass →
          only "NOT-ENGAGED" .attention)
        ∧ (∀ action captions, w.act = .markIn action captions → s.pace.mode = .engaged →
          (32 ≤ s.cuts.cuts.length → only "FULL" .attention)
          ∧ (s.cuts.cuts.length < 32 →
            entered (isn - BitVec.ofNat 32 s.force.react) none none action captions))
        ∧ (w.act = .dump → s.pace.mode = .engaged →
          let first : Isn := if s.force.dumpDepth = 0 then s.cuts.boundary else isn - BitVec.ofNat 32 s.force.dumpDepth + 1
          let out : Isn := isn + BitVec.ofNat 32 s.force.dumpTail
          (32 ≤ s.cuts.cuts.length →
            t = takeUnlisted (.hit h) first isn { s with cuts := { s.cuts with watches := watches } })
          ∧ (s.cuts.cuts.length < 32 →
            if isAfter out s.cuts.head then entered first none (some (.isn out)) .drop false
            else entered first (some out) none .drop false))))

/-- Where the watches are tested (R133, R173, R174), and the !WATCH of a hit request that the Hold Line has answered, with
the result word, the fields of that reply, and the severity of OK, LATE or TOO-LATE (R177). -/
def WatchesAreTestedInOrder : Prop :=
  (∀ (s : State) (isn : Isn) (tc : Option Timecode),
    let t := recordBegins isn tc s
    t.cuts.lastBegun = some isn
      ∧ ∀ n, 1 ≤ n → n ≤ 4 → t.cuts.watches[n - 1]? = (s.cuts.watches[n - 1]?).map fun x => x.map fun w =>
          if w.spent = true ∨ w.point ≠ .playout then w else watchTested w isn tc)
  ∧ (∀ s : State, s.phase = .running → s.timer.markPending = true → s.line.count < 4096 → LineOk s →
    ∃ t r, exec .closingMark s = .next t ∧ t.line.records = s.line.records ++ [r]
      ∧ ∀ n, 1 ≤ n → n ≤ 4 → t.cuts.watches[n - 1]? = (s.cuts.watches[n - 1]?).map fun x => x.map fun w =>
          if w.spent = true ∨ w.point ≠ .ingest then w else watchTested w r.isn r.tc)
  ∧ (∀ (s : State) (h : Hit) (a : Awaiting) (ans : Answer), s.phase = .running → s.cuts.awaiting = some a →
    a.job = .hit h → s.cuts.answer = some ans → s.cuts.queue = [] →
    let told (result : String) (fields : List Field) (sev : Severity) (t : State) : Prop :=
      Told (watchTold h result fields sev) s t
    let allLate : Prop := a.openEnded = false ∧ ans.late = a.count
    ∃ t, exec .updateAnswer s = .next t
      ∧ (∀ c, a.what = .entry c.id → s.cuts.cut c.id = some c → a.openEnded = c.last.isNone →
        let first : Isn := ans.first.getD (a.first + BitVec.ofNat 32 a.count)
        (allLate → told "TOO-LATE" [("TRIM", .num ans.late)] .attention t ∧ t.cuts.cut c.id = none)
        ∧ (¬ allLate → ans.late = 0 →
          told "OK" ([("CUT", .num c.id), ("IN", .num c.first.toNat)] ++ endKeys c) .concealed t)
        ∧ (¬ allLate → ans.late ≠ 0 →
          told "LATE" ([("CUT", .num c.id), ("TRIM", .num ans.late), ("IN", .num first.toNat)] ++ endKeys c)
            .degraded t))
      ∧ (∀ range old gap, a.what = .unlisted range old gap →
        let n := through range.first range.last
        let k := min (ans.late - gap) n
        let ends : List Field := [("IN", .num range.first.toNat), ("OUT", .num range.last.toNat)]
        (allLate → told "TOO-LATE" [("TRIM", .num k)] .attention t)
        ∧ (¬ allLate → k = 0 → told "OK" ([("CUT", .num 0)] ++ ends) .concealed t)
        ∧ (¬ allLate → k ≠ 0 → told "LATE" ([("CUT", .num 0), ("TRIM", .num k)] ++ ends) .degraded t)))

/-- WATCH with a definition replaces the entry, ARMED, unless its ISN match is no longer to come, which is TOO-LATE
(R171). UNWATCH makes a defined entry undefined, and is NOT-FOUND for an undefined one (R172). An ARMED watch is tested
against each new record, or each record that begins: it hits when the record matches, an EVERY watch only where a run of
matches begins; a NOTIFY raises !WATCH, and the others form a request of station 0, measured from the hit ISN, which waits
while the Cut Engine is busy, is NOT-ENGAGED in BYPASS, and is answered by !WATCH (R173 to R178). That the !WATCH of an
answered hit comes before the !CUT of its cut is the model's choice, since R188 leaves the order open (log entry 13); so is
the order of the fields of !WATCH, which no rule fixes (log entry 24); how the late ISNs of an unlisted DUMP
count is log entry 19, and the IN of a cut with no ISN left is log entry 16. -/
def Obligations.WatchAndUnwatchSetTheTable : Prop :=
  WatchIsTested ∧ WatchesAreTestedInOrder ∧
  ∀ (s : State) (p : Port) (r : Request) (n : Nat), Routed s p r → CutEngineFree s → s.cuts.watches.length = 4 →
    let becomes (x : Option Watch) (t : State) : Prop :=
      t.cuts = { s.cuts with watches := s.cuts.watches.set (n - 1) x } ∧ Agrees [.cuts, .ports] s t
        ∧ OtherPortsKept p s t
    (∀ w, r.word = .watch → r.onlyKeys ["W"] = false → r.watchDef s.force.rate = some (n, w) →
      let toCome : Prop := ∀ i, w.cue = .isn i →
        match w.point, s.cuts.lastBegun with
        | .ingest, _ => isAfter i s.cuts.head = true
        | .playout, some b => isAfter i b = true
        | .playout, none => True
      w.spent = false ∧ w.hits = 0 ∧ w.matchedLast = false ∧ w.by_ = r.station
      ∧ ∃ t, exec (.watch p) s = .next t
        ∧ (toCome → Replied p r .ok [("W", .num n), ("STATE", .word "ARMED")] s t ∧ becomes (some w) t)
        ∧ (¬ toCome → OnlyReplied p r .tooLate [] s t))
    ∧ (∀ v, r.word = .unwatch → r.keys = [("W", v)] → numberIn 1 4 v.toList = some n →
      ∃ t, exec (.unwatch p) s = .next t
        ∧ (match s.cuts.watches[n - 1]? with
          | some (some _) => Replied p r .ok [("W", .num n)] s t ∧ becomes none t
          | _ => OnlyReplied p r .notFound [] s t))

/-! ## Chapter 10: the Control Ports -/

/-- The fields of a defined watch after W= (R172); of a MARK-IN watch with its template, whose CAPTIONS= a DROP has not
(R71). -/
def watchFields (w : Watch) : List Field :=
  [match w.cue with
    | .tc tc => ("TC", .tc tc)
    | .isn n => ("ISN", .num n.toNat),
    ("POINT", .word (match w.point with
      | .ingest => "INGEST"
      | .playout => "PLAYOUT")),
    ("DO", .word (match w.act with
      | .notify => "NOTIFY"
      | .markIn _ _ => "MARK-IN"
      | .markOut => "MARK-OUT"
      | .dump => "DUMP")),
    ("REPEAT", .word (if w.every then "EVERY" else "ONCE")), ("STATE", .word (if w.spent then "SPENT" else "ARMED")),
    ("HITS", .num w.hits), ("BY", .num w.by_)]
    ++ (match w.act with
      | .markIn .drop _ => [("ACTION", .word "DROP")]
      | .markIn (.cover source withVideo) captions =>
        ("ACTION", .word "COVER") :: coverKeys source withVideo
          ++ [("CAPTIONS", .word (if captions then "KEEP" else "REMOVE"))]
      | .markIn (.mute mask) captions =>
        [("ACTION", .word "MUTE"), ("MASK", .mask mask), ("CAPTIONS", .word (if captions then "KEEP" else "REMOVE"))]
      | .notify | .markOut | .dump => [])

/-- A list of PERMS= or GROUPS= (R197): the words that are set, in the order of the rule, or NONE. -/
def joinedWords (xs : List (Bool × String)) : Val :=
  let set := (xs.filter (·.1)).map (·.2)
  .word (if set = [] then "NONE" else String.intercalate "+" set)

/-- The fields of a station as replies show them (R197); the order of the words is the model's choice (log entry 73). -/
def stationShown (st : Station) : List Field :=
  [("STATION", .num st.station),
    ("PORT", .word (match st.port with
      | .only .a => "A"
      | .only .b => "B"
      | .only .n => "N"
      | .any => "ANY")),
    ("LEVEL", .num st.level),
    ("PERMS", joinedWords [(st.perms.cut, "CUT"), (st.perms.pace, "PACE"), (st.perms.setup, "SETUP"),
      (st.perms.view, "VIEW")]),
    ("GROUPS", joinedWords [(st.groups.cuts, "CUTS"), (st.groups.pacing, "PACING"), (st.groups.faults, "FAULTS"),
      (st.groups.ingest, "INGEST"), (st.groups.watch, "WATCH"), (st.groups.setup, "SETUP")])]

/-- PARAM with STATION= and with SLOT=, and the forms of PARAM that are BAD (R198). -/
def ParamReadsStationsAndSlots : Prop :=
  ∀ (s : State) (p : Port) (r : Request), Routed s p r → r.word = .param →
    (∀ v n, r.keys = [("STATION", v)] → numberIn 1 99 v.toList = some n →
      let entry (table : List Station) : Option Station := table.find? fun st => st.station = n
      let unbound (st : Station) : Station := { st with current := none, address := none }
      ∃ t, exec (.param p) s = .next t
        ∧ (match entry (s.ports.waiting.getD s.ports.table), entry s.ports.table with
          | some w, some x => OnlyReplied p r .ok
              (stationShown w ++ if unbound w = unbound x then [] else [("PENDING", .word "YES")]) s t
          | some w, none => OnlyReplied p r .ok (stationShown w ++ [("PENDING", .word "YES")]) s t
          | none, some x => OnlyReplied p r .ok (stationShown x ++ [("PENDING", .word "REMOVE")]) s t
          | none, none => OnlyReplied p r .notFound [] s t))
    ∧ (∀ v n, r.keys = [("SLOT", v)] → numberIn 0 4 v.toList = some n →
      ∃ t, exec (.param p) s = .next t
        ∧ OnlyReplied p r .ok
            (("SLOT", .num n)
              :: (if s.settings.valid n = true then [("VALID", .word "YES"), ("GEN", .num (s.settings.slot n).gen)]
                else [("VALID", .word "NO")])
              ++ (if s.settings.save.map (·.slot) = some n then [("SAVING", .word "YES")] else [])) s t)
    ∧ ((2 ≤ r.keys.length
        ∨ ∃ key v, r.keys = [(key, v)] ∧ (key = "NAME" → paramKeys.lookup v = none)
          ∧ (key = "STATION" → numberIn 1 99 v.toList = none) ∧ (key = "SLOT" → numberIn 0 4 v.toList = none)) →
      ∃ t, exec (.param p) s = .next t ∧ OnlyReplied p r .bad [] s t)

/-- The requests that only read are answered OK with what they read, and change nothing but their port: WINDOW with W=
alone (R164), WATCH with W= alone, with every field of the entry (R172), and PARAM of a parameter, of a station, of a profile
slot and without a key; any other form of PARAM is BAD, and a station that neither table holds NOT-FOUND (R198). A station's
fields are those of the waiting table, with PENDING=YES where the entry differs but for its binding; those of an entry in
force that is removed there, with PENDING=REMOVE, are the model's choice (log entry 71), and so are the order of the fields
where a rule only lists them and that of the words of PERMS= and GROUPS= (log entries 24 and 73). -/
def Obligations.ReportsOnlyAnswer : Prop :=
  ∀ (s : State) (p : Port) (r : Request), Routed s p r →
    (∀ v n, r.word = .window → r.keys = [("W", v)] → numberIn 1 8 v.toList = some n →
      ∃ t, exec (.windowReport p) s = .next t
        ∧ OnlyReplied p r .ok
            (match s.store.windows[n - 1]? with
            | some ⟨some d, clips, st⟩ =>
              [("W", .num n), ("BASE", .num d.base), ("LENGTH", .num d.length),
                ("LOOP", .word (if d.loop then "YES" else "NO")), ("CLIPS", .num clips), ("STATE", .word st.text)]
            | _ => [("W", .num n), ("DEFINED", .word "NO")]) s t)
    ∧ (∀ v n, CutEngineFree s → r.word = .watch → r.keys = [("W", v)] → numberIn 1 4 v.toList = some n →
      ∃ t, exec (.watchReport p) s = .next t
        ∧ OnlyReplied p r .ok
            (match s.cuts.watches[n - 1]? with
            | some (some w) => ("W", .num n) :: watchFields w
            | _ => [("W", .num n), ("DEFINED", .word "NO")]) s t)
    ∧ (∀ name k, r.word = .param → r.keys = [("NAME", name)] → paramKeys.lookup name = some k →
      ∃ t, exec (.param p) s = .next t
        ∧ OnlyReplied p r .ok
            ((name, k.val (s.settings.stored.get k))
              :: if s.force.get k = s.settings.stored.get k then [] else [("NOW", k.val (s.force.get k))]) s t)
    ∧ (r.word = .param → r.keys = [] →
      ∃ t, exec (.param p) s = .next t
        ∧ OnlyReplied p r .ok
            ([("START", match s.settings.start with
                | some n => .num n
                | none => .word "DEFAULTS")]
              ++ (match s.settings.cause with
                | .powerOn => [("CAUSE", .word "POWER_ON")]
                | .restartLine => [("CAUSE", .word "RESTART"), ("BY", .word "LINE")]
                | .restartBy n => [("CAUSE", .word "RESTART"), ("BY", .num n)])
              ++ [("SAVING", match s.settings.save with
                | some x => .num x.slot
                | none => .word "NO")]) s t)
    ∧ ParamReadsStationsAndSlots

/-- COUNTERS with a list is answered OK with that list's counters as they stand; with CLEAR=YES, with or without a list,
every counter of every list becomes 0 in the same step, and the drop counts of the ports stay (R191, R192). -/
def Obligations.CountersAreReadAndCleared : Prop :=
  ∀ (s : State) (p : Port) (r : Request), Routed s p r → r.word = .counters →
    let c := s.counters
    let lists : List (String × List Field) :=
      [("INGEST", [("ACCEPTED", .num c.accepted), ("LATE", .num c.late), ("EARLY", .num c.early),
          ("DUP", .num c.duplicate), ("MALFORMED", .num c.malformed), ("CHECKSUM", .num c.checksum),
          ("PARTIAL", .num c.partials), ("LOSS", .num c.losses)]),
        ("OUTPUT", [("REPEATS", .num c.repeats), ("SKIPS", .num c.skips), ("SHEDS", .num c.sheds),
          ("FREEZES", .num c.freezes), ("LATEFETCH", .num c.lateFetches), ("CAPTRUNC", .num c.captionsCut)]),
        ("STORE", [("RETRIES", .num c.retries), ("FAULTS", .num c.faults), ("CORRECTED", .num c.corrected)]),
        ("PORTS", [("NDROPPED", .num c.dropped), ("DROPA", .num s.ports.a.drops), ("DROPB", .num s.ports.b.drops),
          ("DROPN", .num s.ports.n.drops)])]
    let cleared (t : State) : Prop :=
      t.counters = ⟨0, 0, 0, 0, 0, 0, 0, 0, 0, 0, 0, 0, 0, 0, 0, 0, 0, 0⟩ ∧ Agrees [.ports, .counters] s t
        ∧ OtherPortsKept p s t
        ∧ ((s.ports.get p).sending ≠ none → (t.ports.get p).drops = (s.ports.get p).drops)
    (∀ name fields, (name, fields) ∈ lists → r.keys = [("LIST", name)] →
      ∃ t, exec (.counters p) s = .next t ∧ OnlyReplied p r .ok (("LIST", .word name) :: fields) s t)
    ∧ (∀ name fields, (name, fields) ∈ lists → r.keys = [("LIST", name), ("CLEAR", "YES")] →
      ∃ t, exec (.countersClear p) s = .next t ∧ cleared t ∧ Replied p r .ok (("LIST", .word name) :: fields) s t)
    ∧ (r.keys = [("CLEAR", "YES")] →
      ∃ t, exec (.countersClear p) s = .next t ∧ cleared t ∧ Replied p r .ok [] s t)

/-- What a port does with a line that has ended, from `s` to `t`: it joins the request queue behind a request that is at
its owner; a port that is free takes it at once, and refuses it BAD, NOT-ENROLLED or NOT-PERMITTED, or routes it, binding
its enrolled station to the port; and with 8 lines waiting it is answered BUSY, or discarded while a BUSY for an earlier
such line waits, that one which is being sent waits no more being the model's choice (R181, R182, R184, R185, log
entry 26). -/
def LineTaken (p : Port) (l : QueuedLine) (s t : State) : Prop :=
  let x := s.ports.get p
  let y := t.ports.get p
  let told (result : ResultWord) (tag : Option Nat) : Prop :=
    y.outgoing = x.outgoing ++ [Reply.line ⟨result, tag, [], .nothing, false, l.address⟩]
      ∧ y.current = none ∧ y.queue = []
  let bound (r : Request) : List Station := s.ports.table.map fun st =>
    if st.station = r.station && (st.port = .only p || st.port = .any) then
      { st with
        current := if st.port = .any then some p else st.current
        address := if p = .n then l.address else st.address }
    else st
  let enrolled (r : Request) : Option Station :=
    s.ports.table.find? fun st => st.station = r.station && (st.port = .only p || st.port = .any)
  Agrees [.ports] s t ∧ OtherPortsKept p s t ∧ t.ports.waiting = s.ports.waiting ∧ y.line = x.line
  ∧ (x.queue.length < 8 → x.current ≠ none → y = { x with queue := x.queue ++ [l] } ∧ t.ports.table = s.ports.table)
  ∧ (8 ≤ x.queue.length →
    t.ports.table = s.ports.table
      ∧ if ∃ b ∈ x.replies, b.queueFull = true then y = x
        else y.outgoing = x.outgoing ++ [Reply.line ⟨.busy, l.tag, [], .nothing, true, l.address⟩] ∧ y.queue = x.queue)
  ∧ (x.queue = [] → x.current = none →
    (l.request = none → told .bad l.tag ∧ t.ports.table = s.ports.table)
    ∧ (∀ r, l.request = some r →
      (r.word ≠ .status → enrolled r = none → told .notEnrolled (some r.tag) ∧ t.ports.table = s.ports.table)
      ∧ (∀ st, r.word ≠ .status → enrolled r = some st → r.permitted st.perms = false →
          told .notPermitted (some r.tag) ∧ t.ports.table = bound r)
      ∧ ((r.word = .status ∨ ∃ st, enrolled r = some st ∧ r.permitted st.perms = true) →
          y = { x with current := some ⟨r, false⟩ } ∧ t.ports.table = bound r)))

/-- A character other than a line feed joins the partial line of its serial port: the first 240 are held, one beyond
makes it over-long, one that is not printable makes it malformed, and a carriage return is held back until what follows
it is known. A line feed ends the line, which is malformed without a carriage return before it, and is discarded when
empty. A datagram is one line, without the carriage return and line feed at its end, and is discarded when empty (R180).
A line that has ended is taken by its port (R181); that a BUSY which is being sent no longer counts as unsent there is the
model's choice (log entry 26). -/
def Obligations.CharactersAndDatagramsMakeLines : Prop :=
  ∀ s : State, s.phase = .running →
    (∀ (sp : SerialPort) (c : Byte), c ≠ 10 →
      let x := s.ports.get sp.port
      let l := x.line
      ∃ t, exec (.serialCharacter sp c) s = .next t ∧ Agrees [.ports] s t ∧ OtherPortsKept sp.port s t
        ∧ t.ports.table = s.ports.table
        ∧ (l.cr = false → c = 13 → t.ports.get sp.port = { x with line := { l with cr := true } })
        ∧ (l.cr = false → c ≠ 13 → t.ports.get sp.port = { x with line :=
            { chars := if l.chars.length < 240 then l.chars ++ [c] else l.chars
              overlong := l.overlong || decide (240 ≤ l.chars.length)
              bad := l.bad || decide (c.toNat < 32 ∨ 126 < c.toNat)
              cr := false } })
        ∧ (l.cr = true → (t.ports.get sp.port).line.bad = true))
    ∧ (∀ sp : SerialPort,
      let x := s.ports.get sp.port
      let l := x.line
      let ended : State := s.onPort sp.port fun x => { x with line := .empty }
      ∃ t, exec (.serialCharacter sp 10) s = .next t
        ∧ (l.cr = true → l.bad = false → l.chars = [] → t = ended)
        ∧ (l.cr = false ∨ l.bad = true ∨ l.chars ≠ [] →
            LineTaken sp.port ⟨l.chars, l.overlong, l.bad || !l.cr, none⟩ ended t))
    ∧ (∀ (address : Nat) (content body : Bytes),
      (content = body ++ [13, 10] ∨ (content = body ∧ ¬ ∃ b, body = b ++ [13, 10])) →
      ∃ t, exec (.datagram address content) s = .next t
        ∧ (body = [] → t = s)
        ∧ (body ≠ [] → LineTaken .n
            ⟨body.take 240, decide (240 < body.length), body.any fun c => decide (c.toNat < 32 ∨ 126 < c.toNat),
              some address⟩ s t))

/-- When a line has been sent, the transmitter begins the oldest waiting reply, or else the line at the head of the notice
queue with the drop count, which returns to 0, or else is free (R186, R189). PORT-RESET and RESTART are answered OK and
change nothing else (R193, R204); when the OK of a PORT-RESET has been sent, the partial line, the notice queue and the
drop count are discarded first (R193). -/
def Obligations.TransmittersSendInTurn : Prop :=
  ∀ (s : State) (p : Port),
    let x := s.ports.get p
    let goesOn (x y : PortState) : Prop :=
      match x.replies, x.notices with
      | r :: rs, _ => y = { x with sending := some (Reply.line r), replies := rs }
      | [], l :: ls => y = { x with sending := some ⟨l.text x.drops, l.addresses, .nothing⟩, notices := ls, drops := 0 }
      | [], [] => y = { x with sending := none }
    (∀ line, s.phase ≠ .off → x.sending = some line → (∀ station, line.effect ≠ .restart station) →
      ∃ t, exec (.replySent p) s = .next t ∧ Agrees [.ports] s t ∧ OtherPortsKept p s t
        ∧ t.ports.table = s.ports.table ∧ t.ports.waiting = s.ports.waiting
        ∧ (line.effect = .nothing → goesOn x (t.ports.get p))
        ∧ (line.effect = .portReset → goesOn { x with line := .empty, notices := [], drops := 0 } (t.ports.get p)))
    ∧ (∀ r, Routed s p r → r.keys = [] →
      (r.word = .portReset → ∃ t, exec (.portReset p) s = .next t ∧ RepliedWith .portReset p r .ok [] s t
        ∧ Agrees [.ports] s t ∧ OtherPortsKept p s t)
      ∧ (r.word = .restart → ∃ t, exec (.restart p) s = .next t ∧ RepliedWith (.restart r.station) p r .ok [] s t
        ∧ Agrees [.ports] s t ∧ OtherPortsKept p s t))

/-- A raised notice: a port's audience is the stations whose groups include the notice's, whose port is that port, or ANY
with that port as current port, and on Port N with a return address. A port without an audience takes no copy; one with 32
lines waiting drops it and counts; any other queues it at the back, or begins to send it when nothing waits (R188, R189).
The notices dropped counter rises by the number of copies dropped. That the copy on Port N carries one address for each
station, also where two stations share one, is the model's choice (log entry 60). -/
def Obligations.NoticesReachTheirAudience : Prop :=
  ∀ (n : Notice) (s : State),
    let t := raise n s
    let hears (p : Port) (st : Station) : Bool :=
      st.groups.has n.group && (st.port = .only p || (st.port = .any && st.current = some p))
        && (p ≠ .n || st.address ≠ none)
    let heard (p : Port) : Bool := s.ports.table.any (hears p)
    let full (p : Port) : Bool := decide (32 ≤ (s.ports.get p).notices.length)
    let copy (p : Port) : NoticeLine :=
      ⟨n, if p = .n then (s.ports.table.filter (hears p)).filterMap (·.address) else []⟩
    Agrees [.ports, .counters] s t ∧ t.ports.table = s.ports.table
    ∧ (∀ p, let x := s.ports.get p
        (heard p = false → t.ports.get p = x)
        ∧ (heard p = true → full p = true → t.ports.get p = { x with drops := min 65535 (x.drops + 1) })
        ∧ (heard p = true → full p = false → x.sending ≠ none →
            t.ports.get p = { x with notices := x.notices ++ [copy p] })
        ∧ (heard p = true → x.sending = none → x.replies = [] → x.notices = [] →
            t.ports.get p =
              { x with sending := some ⟨(copy p).text x.drops, (copy p).addresses, .nothing⟩, drops := 0 }))
    ∧ (s.counters.dropped ≤ 4294967295 →
        t.counters = { s.counters with
          dropped := min 4294967295
            (s.counters.dropped + ([Port.a, .b, .n].countP fun p => heard p && full p)) })

/-! ## Chapter 11: settings, start-up and restart -/

/-- A SET that carries one key stores one value, shows it as stored, and changes nothing else (R196). -/
def SetStores (key value : String) (put : Params → Params) (word : ResultWord) (shown : Val) : Prop :=
  ∀ (s : State) (p : Port) (r : Request), Routed s p r → r.word = .set → r.keys = [(key, value)] →
    ∃ t, exec (.set p) s = .next t ∧ t.settings = { s.settings with stored := put s.settings.stored }
      ∧ Replied p r word [(key, shown)] s t ∧ Agrees [.settings, .ports] s t ∧ OtherPortsKept p s t

/-- A SET that carries one key is BAD and changes nothing else (R196). -/
def SetRefused (key value : String) : Prop :=
  ∀ (s : State) (p : Port) (r : Request), Routed s p r → r.word = .set → r.keys = [(key, value)] →
    ∃ t, exec (.set p) s = .next t ∧ OnlyReplied p r .bad [] s t

/-- The text is a number of one to ten decimal digits. -/
def IsNumber (v : String) (n : Nat) : Prop :=
  1 ≤ v.toList.length ∧ v.toList.length ≤ 10 ∧ (∀ c ∈ v.toList, 48 ≤ c.toNat ∧ c.toNat ≤ 57)
    ∧ n = v.toList.foldl (fun m c => 10 * m + (c.toNat - 48)) 0

/-- A row of R195 of numbers: one that `admits` is stored as `held` makes it, CLAMPED where that is another number; any
other, and what is no number, is BAD. -/
def NumberRow (key : String) (admits : Nat → Prop) (held : Nat → Nat) (put : Nat → Params → Params) : Prop :=
  (∀ v n, IsNumber v n → admits n →
    SetStores key v (put (held n)) (if held n = n then .ok else .clamped) (.num (held n)))
  ∧ (∀ v, (∀ n, IsNumber v n → ¬ admits n) → SetRefused key v)

/-- A row of R195 whose out-of-range values are CLAMPED to the nearer end. -/
def ClampedRow (key : String) (lo hi : Nat) (put : Nat → Params → Params) : Prop :=
  NumberRow key (fun _ => True) (fun n => if n < lo then lo else if hi < n then hi else n) put

/-- A row of R195 with a list of values, any other BAD. -/
def ListedRow (key : String) (values : List Nat) (put : Nat → Params → Params) : Prop :=
  NumberRow key (fun n => n ∈ values) (fun n => n) put

/-- The table of R195, row by row: the key, the range, what becomes of a value outside it, and the default; and a key outside
it is BAD (R196). -/
def SetFollowsTheCatalogue : Prop :=
  ListedRow "RATE" [25, 30, 50, 60] (fun n q => { q with rate := n })
  ∧ ClampedRow "STREAM" 0 15 (fun n q => { q with stream := n })
  ∧ ClampedRow "T" 1 3600 (fun n q => { q with target := n })
  ∧ ClampedRow "B" 0 50 (fun n q => { q with band := n })
  ∧ ClampedRow "RB" 1 409 (fun n q => { q with rebuild := n })
  ∧ ClampedRow "RT" 1 409 (fun n q => { q with trim := n })
  ∧ ListedRow "C" [16, 32, 64, 128, 256] (fun n q => { q with fade := n })
  ∧ ClampedRow "QUIET" 0 8388607 (fun n q => { q with quiet := n })
  ∧ (∀ v, v.toList.length = 16 → (∀ c ∈ v.toList, c = 'Y' ∨ c = 'N') → ∃ m : BitVec 16,
      (∀ i, i < 16 → (m.getLsbD i = true ↔ v.toList[i]? = some 'Y'))
        ∧ (Val.mask m).text = v ∧ SetStores "SPEECH" v (fun q => { q with speech := m }) .ok (.mask m))
  ∧ (∀ v, (v.toList.length ≠ 16 ∨ ∃ c ∈ v.toList, c ≠ 'Y' ∧ c ≠ 'N') → SetRefused "SPEECH" v)
  ∧ ClampedRow "REACT" 0 100 (fun n q => { q with react := n })
  ∧ ClampedRow "POSTROLL" 0 25 (fun n q => { q with postRoll := n })
  ∧ ClampedRow "DUMPDEPTH" 0 3600 (fun n q => { q with dumpDepth := n })
  ∧ ClampedRow "DUMPTAIL" 0 25 (fun n q => { q with dumpTail := n })
  ∧ ClampedRow "OPENLIMIT" 25 3600 (fun n q => { q with openLimit := n })
  ∧ ClampedRow "AUTOLEVEL" 1 15 (fun n q => { q with autoLevel := n })
  ∧ ClampedRow "PREFETCH" 1 3 (fun n q => { q with prefetch := n })
  ∧ NumberRow "PAYLOAD" (fun n => n % 64 = 0) (fun n => if n < 1024 then 1024 else if 8192 < n then 8192 else n)
      (fun n q => { q with payload := n })
  ∧ ClampedRow "OUTSTREAM" 0 15 (fun n q => { q with outStream := n })
  ∧ ClampedRow "INITSEQ" 0 65535 (fun n q => { q with initSeq := n })
  ∧ ClampedRow "TONE" 0 8388607 (fun n q => { q with tone := n })
  ∧ SetStores "AUTOENGAGE" "YES" (fun q => { q with autoEngage := true }) .ok (.word "YES")
  ∧ SetStores "AUTOENGAGE" "NO" (fun q => { q with autoEngage := false }) .ok (.word "NO")
  ∧ (∀ v, v ≠ "YES" → v ≠ "NO" → SetRefused "AUTOENGAGE" v)
  ∧ (∀ key v, key ≠ "STATION" →
      key ∉ ["RATE", "STREAM", "T", "B", "RB", "RT", "C", "QUIET", "SPEECH", "REACT", "POSTROLL", "DUMPDEPTH", "DUMPTAIL",
        "OPENLIMIT", "AUTOLEVEL", "PREFETCH", "PAYLOAD", "OUTSTREAM", "INITSEQ", "TONE", "AUTOENGAGE"] →
      SetRefused key v)
  ∧ (Val.mask 3).text = "YYNNNNNNNNNNNNNN" ∧ State.reset.settings.stored = Params.defaults
  ∧ Params.defaults =
      { rate := 25, stream := 0, target := 250, band := 2, rebuild := 123, trim := 123, fade := 64, quiet := 8388
        speech := 3, react := 8, postRoll := 4, dumpDepth := 0, dumpTail := 2, openLimit := 750
        autoLevel := 4, prefetch := 2, payload := 8192, outStream := 0, initSeq := 0, tone := 838861, autoEngage := false }

/-- SET of one or more parameters, each in form and admitted, stores every value, clamped where R195 clamps it, and is
answered OK, or CLAMPED when a value was clamped, with the stored values; the values in force wait for a pulse. When one
key is unknown, out of form or refused, it is BAD and nothing is stored (R195, R196). The table of R195 is spelled row by
row: each key with its range or list, CLAMPED or BAD outside it, and its default. -/
def Obligations.SetStoresTheValues : Prop :=
  SetFollowsTheCatalogue ∧
  ∀ (s : State) (p : Port) (r : Request), Routed s p r → r.word = .set → r.has "STATION" = false →
    (∀ settings : List Setting, settings ≠ [] →
      r.keys.length = settings.length →
      (∀ (i : Nat) f x, r.keys[i]? = some f → settings[i]? = some x →
        f.1 = x.name ∧ paramKeys.lookup x.name = some x.key ∧ x.key.read f.2 = some x.given
          ∧ x.key.accept x.given = some x.stored) →
      ∃ t, exec (.set p) s = .next t ∧ Agrees [.settings, .ports] s t ∧ OtherPortsKept p s t
        ∧ Replied p r (if ∀ x ∈ settings, x.stored = x.given then .ok else .clamped)
            (settings.map fun x => (x.name, x.key.val x.stored)) s t
        ∧ t.settings = { s.settings with
            stored := settings.foldl (fun q x => q.set x.key x.stored) s.settings.stored })
    ∧ (r.keys = [] ∨ (∃ f ∈ r.keys, ∀ k given, paramKeys.lookup f.1 = some k → k.read f.2 = some given →
        k.accept given = none) →
      ∃ t, exec (.set p) s = .next t ∧ OnlyReplied p r .bad [] s t)

/-- SET with STATION= changes the waiting table, a copy of the table in force when none waits: a held entry takes the
fields given and keeps the others; a new one needs all four, and is FULL beside eight held; REMOVE=YES takes an entry out,
or is NOT-FOUND (R197). That a held entry may be named with no field at all, and is then OK as it stands, is the model's
choice (log entry 31), and so are the order of the fields and that of the words of PERMS= and GROUPS= (log entries 24
and 73). -/
def Obligations.SetStationChangesTheWaitingTable : Prop :=
  ∀ (s : State) (p : Port) (r : Request) (n : Nat), Routed s p r → r.word = .set →
    r.num "STATION" 1 99 = some n →
    let table := s.ports.waiting.getD s.ports.table
    let held := table.find? fun st => st.station = n
    (∀ f, r.onlyKeys ["STATION", "PORT", "LEVEL", "PERMS", "GROUPS"] = true → r.stationFields = some f →
      ∃ t, exec (.setStation p) s = .next t ∧ Agrees [.ports] s t ∧ OtherPortsKept p s t
        ∧ (∀ st, held = some st →
          let new : Station := { st with
            port := f.port.getD st.port, level := f.level.getD st.level
            perms := f.perms.getD st.perms, groups := f.groups.getD st.groups }
          t.ports.waiting = some (table.map fun x => if x.station = n then new else x)
            ∧ Replied p r .ok (stationShown new) s t)
        ∧ (held = none → ∀ port level perms groups, f = ⟨some port, some level, some perms, some groups⟩ →
          let new : Station := ⟨n, port, level, perms, groups, none, none⟩
          if table.length < 8 then t.ports.waiting = some (table ++ [new]) ∧ Replied p r .ok (stationShown new) s t
          else OnlyReplied p r .full [] s t ∧ t.ports.waiting = s.ports.waiting)
        ∧ (held = none → (f.port = none ∨ f.level = none ∨ f.perms = none ∨ f.groups = none) →
          OnlyReplied p r .bad [] s t ∧ t.ports.waiting = s.ports.waiting))
    ∧ (r.onlyKeys ["STATION", "REMOVE"] = true → r.key "REMOVE" = some "YES" →
      ∃ t, exec (.setStation p) s = .next t ∧ Agrees [.ports] s t ∧ OtherPortsKept p s t
        ∧ (held ≠ none → t.ports.waiting = some (table.filter fun x => x.station ≠ n)
          ∧ Replied p r .ok [("STATION", .num n), ("REMOVED", .word "YES")] s t)
        ∧ (held = none → OnlyReplied p r .notFound [] s t ∧ t.ports.waiting = s.ports.waiting))

/-- SAVE of a user slot with no save in flight is STARTED with the next generation: the slot is invalid at once, and the
save holds the settings as they stand (R200); slot 0 is NOT-PERMITTED, and a second save BUSY. A write that reads back
leaves the slot with what was saved under its own number, the generation and the ones' complement checksum over the body's
words, and so valid, and raises !SAVED; one that does not, or the limit of 400 ms, leaves it as it is, which is invalid
since the SAVE, and raises !SAVE_FAILED with its reason (R199, R200). A slot is valid when its header names its own number,
its checksum verifies, its records parse and no save of it was interrupted (R199). That the limit moves the model's clock,
and what the words of a body are, is the model's choice (log entries 1 and 29). -/
def Obligations.SaveWritesItsSlot : Prop :=
  (∀ (x : Settings) (n : Nat),
    let y := (x.slots[n]?).getD ⟨n, 0, 0, false, []⟩
    x.valid n = true ↔ y.number = n ∧ onesSum (bodyWords y.body ++ [y.checksum.toNat]) = 65535
      ∧ (∀ words, ProfileRecord.broken words ∉ y.body) ∧ y.interrupted = false)
  ∧
  (∀ (s : State) (p : Port) (r : Request) (v : String) (n : Nat), Routed s p r → r.word = .save →
    r.keys = [("SLOT", v)] → numberIn 0 4 v.toList = some n →
    let gen := s.settings.topGeneration + 1
    ∃ t, exec (.save p) s = .next t ∧ Agrees [.settings, .ports] s t ∧ OtherPortsKept p s t
      ∧ (n = 0 → OnlyReplied p r .notPermitted [] s t)
      ∧ (n ≠ 0 → s.settings.save ≠ none → OnlyReplied p r .busy [] s t)
      ∧ (n ≠ 0 → s.settings.save = none → 4294967295 < gen → OnlyReplied p r .full [] s t)
      ∧ (n ≠ 0 → s.settings.save = none → gen ≤ 4294967295 →
        Replied p r .started [("SLOT", .num n), ("GEN", .num gen)] s t
          ∧ t.settings.save = some ⟨n, gen, s.now, snapshot s⟩
          ∧ t.settings.valid n = false ∧ (∀ m, m ≠ n → t.settings.slots[m]? = s.settings.slots[m]?)
          ∧ t.settings.stored = s.settings.stored))
  ∧ (∀ (s : State) (x : Save), s.phase = .running → s.settings.save = some x →
    let carried (slots : List ProfileSlot) (t : State) : Prop :=
      t.settings = { s.settings with slots := slots, save := none }
    let failed (reason : String) (t : State) : Prop :=
      carried s.settings.slots t
        ∧ Told ⟨"!SAVE_FAILED", .setup, .attention, [("SLOT", .num x.slot), ("REASON", .word reason)]⟩ s t
    (∃ t, exec (.saveComplete true) s = .next t ∧ Agrees [.settings, .ports, .counters] s t
      ∧ carried (s.settings.slots.set x.slot
          ⟨x.slot, x.gen, BitVec.ofNat 16 (65535 - onesSum (bodyWords x.body)), false, x.body⟩) t
      ∧ (x.slot < s.settings.slots.length → (∀ words, ProfileRecord.broken words ∉ x.body) → t.settings.valid x.slot = true)
      ∧ Told ⟨"!SAVED", .setup, .concealed, [("SLOT", .num x.slot), ("GEN", .num x.gen)]⟩ s t)
    ∧ (∃ t, exec (.saveComplete false) s = .next t ∧ Agrees [.settings, .ports, .counters] s t ∧ failed "WRITE" t)
    ∧ (∃ t, exec .saveTimeout s = .next t ∧ Agrees [.now, .settings, .ports, .counters] s t
      ∧ t.now = max s.now (x.began + 1200) ∧ failed "TIMEOUT" t))

/-- PROFILE loads a valid slot at once and whole: its parameters are stored and its station table waits. A window whose
definition is the profile's already, or that is LOADING, stays as it is. Every other window takes the profile's definition,
EMPTY with clip count 0, unless that overlaps a window that kept its own or one taken before it, in window order 1 to 8; it
is then undefined, as it is where the profile gives none. The reads of all these are settled. The reply tells in WKEPT= the
LOADING windows that kept another definition and in UNDEF= those left undefined by overlap. It is BUSY during a save and
NOT-FOUND for an invalid slot (R168, R199, R202). That a definition which differs in its loop field alone is another one,
and that the reads of an EMPTY window are settled too, are the model's readings (log entries 30 and 57); so is that a window
record which does not fit the 256 blocks, or names no window, is no definition (log entry 72), and that a station record
ignored as a duplicate does not count towards the eighth (log entry 74). -/
def Obligations.ProfileIsLoadedWhole : Prop :=
  ∀ (s : State) (p : Port) (r : Request) (v : String) (n : Nat), Routed s p r → r.word = .profile →
    r.keys = [("SLOT", v)] → numberIn 0 4 v.toList = some n → s.store.windows.length = 8 →
    ∃ t, exec (.profile p) s = .next t ∧ Agrees [.settings, .store, .play, .ports] s t ∧ OtherPortsKept p s t
      ∧ (s.settings.save ≠ none → OnlyReplied p r .busy [] s t)
      ∧ (s.settings.save = none → s.settings.valid n = false → OnlyReplied p r .notFound [] s t)
      ∧ (s.settings.save = none → s.settings.valid n = true →
        let slot := s.settings.slot n
        let numbers : List Nat := [1, 2, 3, 4, 5, 6, 7, 8]
        let wants (k : Nat) : Option WindowDef := windowIn slot.body k
        let stays (k : Nat) : Bool := decide ((s.store.window k).defn = wants k) || decide ((s.store.window k).st = .loading)
        let kept := numbers.filter fun k =>
          decide ((s.store.window k).st = .loading) && decide ((s.store.window k).defn ≠ wants k)
        let left := numbers.filter fun k =>
          !stays k && decide (wants k ≠ none) && decide ((t.store.window k).defn = none)
        let listed (key : String) (ks : List Nat) : List Field := if ks = [] then [] else [(key, .word (commaList ks))]
        Replied p r .ok ([("SLOT", .num n), ("GEN", .num slot.gen)] ++ listed "WKEPT" kept ++ listed "UNDEF" left) s t
          ∧ t.settings = { s.settings with stored := loadParams slot.body }
          ∧ t.ports.waiting = some (loadTable slot.body)
          ∧ t.store.windows.length = 8
          ∧ (∀ k, 1 ≤ k → k ≤ 8 →
            (stays k = true → t.store.window k = s.store.window k)
            ∧ (stays k = false → wants k = none → t.store.window k = ⟨none, 0, .empty⟩)
            ∧ (∀ d, stays k = false → wants k = some d →
              let taken : Prop := ∃ j e, 1 ≤ j ∧ j ≤ 8 ∧ j ≠ k ∧ (stays j = true ∨ j < k)
                ∧ (t.store.window j).defn = some e ∧ d.base < e.base + e.length ∧ e.base < d.base + d.length
              (taken → t.store.window k = ⟨none, 0, .empty⟩) ∧ (¬ taken → t.store.window k = ⟨some d, 0, .empty⟩)))
          ∧ (let settled (q : StoreReq) : Bool := numbers.any fun k => !stays k && q.job.reads k
            t.store.cover = s.store.cover.filter (fun q => !settled q)
              ∧ t.store.flight = s.store.flight.map (fun a =>
                  if settled a.req then { a with req := { a.req with cleared := true } } else a)
              ∧ (∀ q ∈ s.store.cover, settled q = true → ∀ isn window block i j x, q.job = .coverRead isn window block i →
                  s.play.slotOf isn = some j → s.play.coverAt j = .reading x → t.play.coverAt j = .cleared x))
          ∧ t.store.mem = s.store.mem)

/-- What a SAVE writes, a load reads: from the settings saved, a profile load finds the same stored parameters, the same
station table without its bindings, and the same window definitions (R199, R200, R202). -/
def Obligations.ProfilesReadBackWhatWasSaved : Prop :=
  ∀ s : State, ParamsOk s → WindowsOk s →
    let table := s.ports.waiting.getD s.ports.table
    loadParams (snapshot s) = s.settings.stored
      ∧ ((table.map (·.station)).Nodup → table.length ≤ 8 →
          loadTable (snapshot s) = table.map fun st => { st with current := none, address := none })
      ∧ (∀ k, 1 ≤ k → k ≤ 8 → windowIn (snapshot s) k = (s.store.window k).defn)

/-- What both resets leave in the blocks that hold nothing over them, with the values in force: the Timer, the two paths of
the Ingest Unit, the line, the Cut Engine, the Pacing Controller, the Playout Unit, the Output Packetizer, the queues of the
Arbiter and the counters (R7, R36, R40, R63, R90, R109, R134, R147, R161, R170, R191). The loss watch runs from the end of
the reset only, and is stated there. -/
def BlocksAreEmpty (t : State) : Prop :=
  t.timer = { t.timer with locked := false, begun := false, pulses := 0, markPending := false, freeRuns := false }
    ∧ t.ingest.expected = none ∧ t.ingest.window = [] ∧ t.ingest.early = 0 ∧ t.ingest.lossRun = 0 ∧ t.ingest.last = none
    ∧ t.ingest.slots.length = 3 ∧ (∀ x ∈ t.ingest.slots, x.st = .free)
    ∧ t.lane.st = .idle ∧ t.lane.slots.length = 2 ∧ (∀ x ∈ t.lane.slots, x.st = .free)
    ∧ t.line = ⟨[], 0, List.range 3840, none⟩
    ∧ t.cuts = ⟨[], 1, 0, 4294967295, 0, none, [none, none, none, none], none, [], none, none, none⟩
    ∧ t.pace.mode = (if t.force.autoEngage then .engaged else .bypass)
    ∧ t.pace.st = (if t.force.autoEngage then .steady else .idle) ∧ t.pace.slip = 0
    ∧ t.pace.period = none ∧ t.pace.waiting = none ∧ t.pace.queue = [] ∧ t.pace.instructions = [] ∧ t.pace.answers = []
    ∧ t.play.slots = [⟨none, .empty, .none⟩, ⟨none, .empty, .none⟩, ⟨none, .empty, .none⟩, ⟨none, .empty, .none⟩]
    ∧ t.play.last = none ∧ t.play.held = none ∧ t.play.lookahead = none ∧ t.play.prev = none ∧ t.play.tonePhase = 0
    ∧ t.play.run = none ∧ t.play.faults = [] ∧ t.play.lastFallback = none ∧ t.play.underrun = false
    ∧ t.pack.out = 0 ∧ t.pack.handed = 0 ∧ t.pack.queue = [] ∧ t.pack.nextSeq = BitVec.ofNat 16 t.force.initSeq
    ∧ t.store.demand = [] ∧ t.store.ingest = [] ∧ t.store.cover = [] ∧ t.store.load = [] ∧ t.store.fetch = []
    ∧ t.store.flight = none
    ∧ t.counters = ⟨0, 0, 0, 0, 0, 0, 0, 0, 0, 0, 0, 0, 0, 0, 0, 0, 0, 0⟩

/-- The loss watch runs from now, the end of the reset, for one and a half nominal periods (R7). -/
def WatchStarts (now : Nat) (t : State) : Prop :=
  t.timer.watchRuns = true ∧ t.timer.watchDue = now + 4500 / t.force.rate

/-- What both resets leave in the Control Ports (R183, R194): no waiting table, no binding, and on each port no partial line,
no waiting line, no request, no waiting reply and no drop count. The port was sending `before` as the reset ended; a port
with an audience for SETUP sends the start notice `start`, or keeps it waiting behind that line (R188, R205); `more` are the
notices after it. -/
def PortsAreEmpty (before : Port → Option Sending) (start : Option Notice) (more : List Notice) (t : State) : Prop :=
  t.ports.waiting = none ∧ (∀ st ∈ t.ports.table, st.current = none ∧ st.address = none)
    ∧ ∀ p : Port,
      let y := t.ports.get p
      let heard : List Notice := if p ≠ .n ∧ ∃ st ∈ t.ports.table, st.port = .only p ∧ st.groups.setup = true then
        start.toList ++ more else []
      y.line = ⟨[], false, false, false⟩ ∧ y.queue = [] ∧ y.current = none ∧ y.replies = [] ∧ y.drops = 0
        ∧ (match before p, heard with
          | none, [] => y.sending = none ∧ y.notices = []
          | none, n :: ns => y.sending = some ⟨n.text, [], .nothing⟩ ∧ y.notices = ns.map fun n => ⟨n, []⟩
          | some x, ns => y.sending = some x ∧ y.notices = ns.map fun n => ⟨n, []⟩)

/-- A power-on brings every block to its power-on state from the start profile: the valid user slot of the highest
generation, the lowest-numbered of equals, else slot 0 when valid, else the built-in defaults with station 1 on port ANY;
the profile slots are kept and no save is in flight. Its parameters are stored and in force, its station table is in force
without bindings, and its windows are taken in window order, EMPTY, but for one that overlaps a window already taken. No
access is outstanding, the grant number is 0, and the ports send the start notice to the stations that hear it, and after
it !NO_PROFILE under the defaults; while the reset line is held, both wait for its release, as the loss watch does (R7, R36,
R63, R90, R109, R134, R147, R161, R169, R194, R203, R204, R205). A power loss leaves the part off, with no save in flight
(R201). Which of two records of one thing a body gives is the model's reading (log entry 30). That a POWER_ON is taken in
every phase, also by a part that runs, is the model's choice (log entry 47), and so are what a hold leaves of the events in
it (log entry 28), and that a station record ignored as a duplicate does not count towards the eighth (log entry 74). -/
def Obligations.PowerOnStartsFromAProfile : Prop :=
  ∀ s : State,
    exec .powerLoss s = .next { s with phase := .off, settings := { s.settings with save := none } }
    ∧ ∃ t, exec .powerOn s = .next t
      ∧ Agrees [.phase, .force, .timer, .ingest, .lane, .line, .cuts, .pace, .play, .pack, .store, .ports, .settings,
          .counters] s t
      ∧ t.phase = (if s.resetLine then .held true else .running)
      ∧ t.settings.slots = s.settings.slots ∧ t.settings.save = none ∧ t.settings.cause = .powerOn
      ∧ (∀ n, 1 ≤ n → n ≤ 4 → s.settings.valid n = true →
          (∀ m, 1 ≤ m → m ≤ 4 → s.settings.valid m = true →
            (s.settings.slot m).gen < (s.settings.slot n).gen
              ∨ ((s.settings.slot m).gen = (s.settings.slot n).gen ∧ n ≤ m)) →
          t.settings.start = some n)
      ∧ ((∀ n, 1 ≤ n → n ≤ 4 → s.settings.valid n = false) →
          t.settings.start = if s.settings.valid 0 then some 0 else none)
      ∧ (∀ n, t.settings.start = some n →
          t.settings.stored = loadParams (s.settings.slot n).body ∧ t.ports.table = loadTable (s.settings.slot n).body)
      ∧ (t.settings.start = none →
          t.settings.stored = Params.defaults
            ∧ t.ports.table =
                [⟨1, .any, 15, ⟨true, true, true, true⟩, ⟨true, true, true, true, true, true⟩, none, none⟩])
      ∧ t.force = t.settings.stored
      ∧ BlocksAreEmpty t ∧ (s.resetLine = false → WatchStarts s.now t)
      ∧ t.store.outstanding = none ∧ t.store.grants = 0
      ∧ t.store.windows.length = 8
      ∧ (∀ k, 1 ≤ k → k ≤ 8 →
        let wanted : Option WindowDef := t.settings.start.bind fun n => windowIn (s.settings.slot n).body k
        let taken (d : WindowDef) : Prop := ∃ j e, 1 ≤ j ∧ j < k ∧ (t.store.window j).defn = some e
          ∧ d.base < e.base + e.length ∧ e.base < d.base + d.length
        (wanted = none → t.store.window k = ⟨none, 0, .empty⟩)
          ∧ (∀ d, wanted = some d → taken d → t.store.window k = ⟨none, 0, .empty⟩)
          ∧ (∀ d, wanted = some d → ¬ taken d → t.store.window k = ⟨some d, 0, .empty⟩))
      ∧ (s.resetLine = true → PortsAreEmpty (fun _ => none) none [] t)
      ∧ (s.resetLine = false → PortsAreEmpty (fun _ => none)
          (some ⟨"!START", .setup, .concealed, [("CAUSE", .word "POWER_ON"), ("PROFILE", match t.settings.start with
            | some n => .num n
            | none => .word "DEFAULTS")]⟩)
          (if t.settings.start = none then [⟨"!NO_PROFILE", .setup, .attention, []⟩] else []) t)

/-- A restart, by the reset line or by a RESTART whose OK has been sent, puts every stored value in force and empties every
block, the ports included, but keeps the profile slots, the stored values, the stacked DRAM and its windows' definitions,
the grant number and the packet that Media Out took last; the access at the store is outstanding; a LOADING window becomes
EMPTY, and every window when the slice rate changes; the waiting station table takes effect with its bindings cleared; a
line that a port has begun is finished, but has no effect any more (log entry 21). The line holds the part, which raises no
notice while it is held; its release starts the loss watch and raises !START, as a RESTART does at once, and the release
that ends a power-on under the built-in defaults raises !NO_PROFILE behind it (R7, R36, R40, R63, R90, R109, R134, R147,
R161, R169, R194, R203, R204, R205). What a hold leaves of the events in it is the model's choice (log entry 28). -/
def Obligations.RestartKeepsMemoryAndSettings : Prop :=
  ∀ s : State,
    let restarted (cause : Cause) (t : State) : Prop :=
      t.force = s.settings.stored ∧ t.settings = { s.settings with save := none, cause := cause }
        ∧ BlocksAreEmpty t
        ∧ t.pack.wire = s.pack.wire
        ∧ t.store.mem = s.store.mem ∧ t.store.grants = s.store.grants
        ∧ t.store.outstanding = s.store.flight.or s.store.outstanding
        ∧ t.store.windows = s.store.windows.map (fun w =>
            if s.force.rate ≠ s.settings.stored.rate ∨ w.st = .loading then { w with clips := 0, st := .empty } else w)
        ∧ t.ports.table = (s.ports.waiting.getD s.ports.table).map (fun st => { st with current := none, address := none })
        ∧ Agrees [.phase, .resetLine, .force, .timer, .ingest, .lane, .line, .cuts, .pace, .play, .pack, .store, .ports,
            .settings, .counters] s t
    let finishing (p : Port) : Option Sending := (s.ports.get p).sending.map fun x => { x with effect := .nothing }
    (s.phase = .running →
      ∃ t, exec .resetLineAsserted s = .next t ∧ restarted .restartLine t ∧ t.phase = .held false ∧ t.resetLine = true
        ∧ PortsAreEmpty finishing none [] t)
    ∧ (∀ p line station, s.phase = .running → (s.ports.get p).sending = some line → line.effect = .restart station →
      ∃ t, exec (.replySent p) s = .next t ∧ restarted (.restartBy station) t ∧ t.phase = .running
        ∧ t.resetLine = s.resetLine ∧ WatchStarts s.now t
        ∧ PortsAreEmpty (fun q => if q = p then none else finishing q)
            (some ⟨"!START", .setup, .concealed, [("CAUSE", .word "RESTART"), ("BY", .num station)]⟩) [] t)
    ∧ (∀ power, s.phase = .held power →
      ∃ t, exec .resetLineReleased s = .next t ∧ t.phase = .running ∧ t.resetLine = false
        ∧ t.timer.locked = false ∧ t.timer.begun = false ∧ WatchStarts s.now t
        ∧ t.timer.markPending = false ∧ t.timer.freeRuns = false
        ∧ Agrees [.phase, .resetLine, .timer, .ports, .counters] s t
        ∧ Told ⟨"!START", .setup, .concealed, match s.settings.cause with
            | .powerOn => [("CAUSE", .word "POWER_ON"), ("PROFILE", match s.settings.start with
                | some n => .num n
                | none => .word "DEFAULTS")]
            | .restartLine => [("CAUSE", .word "RESTART"), ("BY", .word "LINE")]
            | .restartBy n => [("CAUSE", .word "RESTART"), ("BY", .num n)]⟩ s t
        ∧ (s.settings.cause = .powerOn → s.settings.start = none →
          ToldInTurn
            ⟨"!START", .setup, .concealed, [("CAUSE", .word "POWER_ON"), ("PROFILE", .word "DEFAULTS")]⟩
            ⟨"!NO_PROFILE", .setup, .attention, []⟩ s t))

/-! ## Invariants -/

/-- Every step keeps the stacked DRAM in its canonical form. -/
def Obligations.MemoryKeepsItsForm : Prop := ∀ s t : State, MemoryOk s → step s = .next t → MemoryOk t

/-- The free pool of R46. Every step keeps every page of the page area in the free pool or with exactly one record,
without duplicates; a step takes at most the page at the head and appends pages at the tail, and a reset leaves all 3,840
pages in ascending order, as a power-on and a restart do; the free pages and the records that hold a page are 3,840
together; and STATUS reports the free pages. -/
def Obligations.PagesStayAccountedFor : Prop :=
  ∀ s : State, PagesOk s →
    s.line.freePool.Nodup ∧ s.line.freePool.length ≤ 3840
    ∧ s.line.freePool.length + s.line.records.countP (fun r => r.page.isSome) = 3840
    ∧ (∀ t, step s = .next t → PagesOk t
      ∧ (t.line = ⟨[], 0, List.range 3840, none⟩
        ∨ ∃ claimed kept returned, claimed.length ≤ 1 ∧ s.line.freePool = claimed ++ kept
          ∧ t.line.freePool = kept ++ returned))
    ∧ (∀ t, (exec .powerOn s = .next t ∨ (s.phase = .running ∧ exec .resetLineAsserted s = .next t)
        ∨ ∃ p line station, s.phase = .running ∧ (s.ports.get p).sending = some line ∧ line.effect = .restart station
          ∧ exec (.replySent p) s = .next t) →
      t.line = ⟨[], 0, List.range 3840, none⟩)
    ∧ (∀ p r, Routed s p r → r.word = .status → r.keys = [] →
      ∃ t before after, exec (.status p) s = .next t
        ∧ Replied p r .ok (before ++ ("FREE", .num s.line.freePool.length) :: after) s t)

/-- Every step keeps the line in order: ISNs run on one by one to the next ISN, the committed records are those before A,
only they emit, one at most at a time, and 4,096 records at most stand (R4, R41, R42, R44, R50, R51, R53). -/
def Obligations.LineStaysInOrder : Prop := ∀ s t : State, LineOk s → step s = .next t → LineOk t

/-- A committed record's disposition fields, deciding cut and edit count never change while it stands in the line, and it
stays committed (R51, R121). -/
def Obligations.CommittedRecordsKeepTheirRendering : Prop :=
  ∀ (s t : State) (r x : Rec), LineOk s → step s = .next t → r ∈ s.line.records → r.committed = true →
    x ∈ t.line.records → x.isn = r.isn →
    x.fields = r.fields ∧ x.cut = r.cut ∧ x.edit = r.edit ∧ x.committed = true

/-- Every step keeps the cover windows apart and within the cover area (R162), and the stored parameters and those in
force within the ranges of the table of R195, which `Params.admitted` spells row by row. -/
def Obligations.WindowsAndParametersStayInRange : Prop :=
  ∀ s t : State, step s = .next t → (WindowsOk s → WindowsOk t) ∧ (ParamsOk s → ParamsOk t)

/-- Every step keeps the bounds of the queues and of the pacing values: 8 lines and 32 notices a port, nothing waiting
behind a free transmitter (R181, R186, R189); 32 cuts under distinct ids of 1 to 255, and four watches (R64, R65, R170);
one access at the store, and one place in the order of arrival for each request (R151, R153, R161); the mode, the pacing
state and S together (R91, R94); four buffer slots, each for a record of its own (R110); two slices at most in the send
queue (R146); and, in the staging slots, ranges that do not overlap, below their kind total, audio of the one size that
is not rejected, and caption bytes below 2,048 only (R27, R28, R29). -/
def Obligations.QueuesAndPacingStayInBounds : Prop :=
  ∀ s t : State, step s = .next t →
    (PortsOk s → PortsOk t) ∧ (TransmittersOk s → TransmittersOk t) ∧ (CutListOk s → CutListOk t)
      ∧ (OneAccess s → OneAccess t) ∧ (PaceOk s → PaceOk t) ∧ (ArrivalsOk s → ArrivalsOk t)
      ∧ (PlayOk s → PlayOk t) ∧ (SendQueueOk s → SendQueueOk t) ∧ (SlotsOk s → SlotsOk t)

/-- The part right after reset meets every invariant. -/
def Obligations.ResetMeetsTheInvariants : Prop :=
  MemoryOk State.reset ∧ PagesOk State.reset ∧ LineOk State.reset ∧ WindowsOk State.reset ∧ ParamsOk State.reset
    ∧ PortsOk State.reset ∧ TransmittersOk State.reset ∧ CutListOk State.reset ∧ OneAccess State.reset ∧ PaceOk State.reset
    ∧ ArrivalsOk State.reset ∧ PlayOk State.reset ∧ SendQueueOk State.reset ∧ SlotsOk State.reset
end

