-- ==== Sys2Proof/Laws/State.lean ====
section
/-! SUPPORT. One lemma per field per update of the state, so that no proof unfolds a record update. -/

namespace Sys2Proof.Machine

variable (s : State)

/-! ### onTimer -/

@[simp] theorem State.onTimer_pending (f : Timer → Timer) : (s.onTimer f).pending = s.pending := rfl
@[simp] theorem State.onTimer_now (f : Timer → Timer) : (s.onTimer f).now = s.now := rfl
@[simp] theorem State.onTimer_phase (f : Timer → Timer) : (s.onTimer f).phase = s.phase := rfl
@[simp] theorem State.onTimer_resetLine (f : Timer → Timer) : (s.onTimer f).resetLine = s.resetLine := rfl
@[simp] theorem State.onTimer_draws (f : Timer → Timer) : (s.onTimer f).draws = s.draws := rfl
@[simp] theorem State.onTimer_force (f : Timer → Timer) : (s.onTimer f).force = s.force := rfl
@[simp] theorem State.onTimer_timer (f : Timer → Timer) : (s.onTimer f).timer = f s.timer := rfl
@[simp] theorem State.onTimer_ingest (f : Timer → Timer) : (s.onTimer f).ingest = s.ingest := rfl
@[simp] theorem State.onTimer_lane (f : Timer → Timer) : (s.onTimer f).lane = s.lane := rfl
@[simp] theorem State.onTimer_line (f : Timer → Timer) : (s.onTimer f).line = s.line := rfl
@[simp] theorem State.onTimer_cuts (f : Timer → Timer) : (s.onTimer f).cuts = s.cuts := rfl
@[simp] theorem State.onTimer_pace (f : Timer → Timer) : (s.onTimer f).pace = s.pace := rfl
@[simp] theorem State.onTimer_play (f : Timer → Timer) : (s.onTimer f).play = s.play := rfl
@[simp] theorem State.onTimer_pack (f : Timer → Timer) : (s.onTimer f).pack = s.pack := rfl
@[simp] theorem State.onTimer_store (f : Timer → Timer) : (s.onTimer f).store = s.store := rfl
@[simp] theorem State.onTimer_ports (f : Timer → Timer) : (s.onTimer f).ports = s.ports := rfl
@[simp] theorem State.onTimer_settings (f : Timer → Timer) : (s.onTimer f).settings = s.settings := rfl
@[simp] theorem State.onTimer_counters (f : Timer → Timer) : (s.onTimer f).counters = s.counters := rfl

/-! ### onIngest -/

@[simp] theorem State.onIngest_pending (f : Ingest → Ingest) : (s.onIngest f).pending = s.pending := rfl
@[simp] theorem State.onIngest_now (f : Ingest → Ingest) : (s.onIngest f).now = s.now := rfl
@[simp] theorem State.onIngest_phase (f : Ingest → Ingest) : (s.onIngest f).phase = s.phase := rfl
@[simp] theorem State.onIngest_resetLine (f : Ingest → Ingest) : (s.onIngest f).resetLine = s.resetLine := rfl
@[simp] theorem State.onIngest_draws (f : Ingest → Ingest) : (s.onIngest f).draws = s.draws := rfl
@[simp] theorem State.onIngest_force (f : Ingest → Ingest) : (s.onIngest f).force = s.force := rfl
@[simp] theorem State.onIngest_timer (f : Ingest → Ingest) : (s.onIngest f).timer = s.timer := rfl
@[simp] theorem State.onIngest_ingest (f : Ingest → Ingest) : (s.onIngest f).ingest = f s.ingest := rfl
@[simp] theorem State.onIngest_lane (f : Ingest → Ingest) : (s.onIngest f).lane = s.lane := rfl
@[simp] theorem State.onIngest_line (f : Ingest → Ingest) : (s.onIngest f).line = s.line := rfl
@[simp] theorem State.onIngest_cuts (f : Ingest → Ingest) : (s.onIngest f).cuts = s.cuts := rfl
@[simp] theorem State.onIngest_pace (f : Ingest → Ingest) : (s.onIngest f).pace = s.pace := rfl
@[simp] theorem State.onIngest_play (f : Ingest → Ingest) : (s.onIngest f).play = s.play := rfl
@[simp] theorem State.onIngest_pack (f : Ingest → Ingest) : (s.onIngest f).pack = s.pack := rfl
@[simp] theorem State.onIngest_store (f : Ingest → Ingest) : (s.onIngest f).store = s.store := rfl
@[simp] theorem State.onIngest_ports (f : Ingest → Ingest) : (s.onIngest f).ports = s.ports := rfl
@[simp] theorem State.onIngest_settings (f : Ingest → Ingest) : (s.onIngest f).settings = s.settings := rfl
@[simp] theorem State.onIngest_counters (f : Ingest → Ingest) : (s.onIngest f).counters = s.counters := rfl

/-! ### onLane -/

@[simp] theorem State.onLane_pending (f : Lane → Lane) : (s.onLane f).pending = s.pending := rfl
@[simp] theorem State.onLane_now (f : Lane → Lane) : (s.onLane f).now = s.now := rfl
@[simp] theorem State.onLane_phase (f : Lane → Lane) : (s.onLane f).phase = s.phase := rfl
@[simp] theorem State.onLane_resetLine (f : Lane → Lane) : (s.onLane f).resetLine = s.resetLine := rfl
@[simp] theorem State.onLane_draws (f : Lane → Lane) : (s.onLane f).draws = s.draws := rfl
@[simp] theorem State.onLane_force (f : Lane → Lane) : (s.onLane f).force = s.force := rfl
@[simp] theorem State.onLane_timer (f : Lane → Lane) : (s.onLane f).timer = s.timer := rfl
@[simp] theorem State.onLane_ingest (f : Lane → Lane) : (s.onLane f).ingest = s.ingest := rfl
@[simp] theorem State.onLane_lane (f : Lane → Lane) : (s.onLane f).lane = f s.lane := rfl
@[simp] theorem State.onLane_line (f : Lane → Lane) : (s.onLane f).line = s.line := rfl
@[simp] theorem State.onLane_cuts (f : Lane → Lane) : (s.onLane f).cuts = s.cuts := rfl
@[simp] theorem State.onLane_pace (f : Lane → Lane) : (s.onLane f).pace = s.pace := rfl
@[simp] theorem State.onLane_play (f : Lane → Lane) : (s.onLane f).play = s.play := rfl
@[simp] theorem State.onLane_pack (f : Lane → Lane) : (s.onLane f).pack = s.pack := rfl
@[simp] theorem State.onLane_store (f : Lane → Lane) : (s.onLane f).store = s.store := rfl
@[simp] theorem State.onLane_ports (f : Lane → Lane) : (s.onLane f).ports = s.ports := rfl
@[simp] theorem State.onLane_settings (f : Lane → Lane) : (s.onLane f).settings = s.settings := rfl
@[simp] theorem State.onLane_counters (f : Lane → Lane) : (s.onLane f).counters = s.counters := rfl

/-! ### onLine -/

@[simp] theorem State.onLine_pending (f : HoldLine → HoldLine) : (s.onLine f).pending = s.pending := rfl
@[simp] theorem State.onLine_now (f : HoldLine → HoldLine) : (s.onLine f).now = s.now := rfl
@[simp] theorem State.onLine_phase (f : HoldLine → HoldLine) : (s.onLine f).phase = s.phase := rfl
@[simp] theorem State.onLine_resetLine (f : HoldLine → HoldLine) : (s.onLine f).resetLine = s.resetLine := rfl
@[simp] theorem State.onLine_draws (f : HoldLine → HoldLine) : (s.onLine f).draws = s.draws := rfl
@[simp] theorem State.onLine_force (f : HoldLine → HoldLine) : (s.onLine f).force = s.force := rfl
@[simp] theorem State.onLine_timer (f : HoldLine → HoldLine) : (s.onLine f).timer = s.timer := rfl
@[simp] theorem State.onLine_ingest (f : HoldLine → HoldLine) : (s.onLine f).ingest = s.ingest := rfl
@[simp] theorem State.onLine_lane (f : HoldLine → HoldLine) : (s.onLine f).lane = s.lane := rfl
@[simp] theorem State.onLine_line (f : HoldLine → HoldLine) : (s.onLine f).line = f s.line := rfl
@[simp] theorem State.onLine_cuts (f : HoldLine → HoldLine) : (s.onLine f).cuts = s.cuts := rfl
@[simp] theorem State.onLine_pace (f : HoldLine → HoldLine) : (s.onLine f).pace = s.pace := rfl
@[simp] theorem State.onLine_play (f : HoldLine → HoldLine) : (s.onLine f).play = s.play := rfl
@[simp] theorem State.onLine_pack (f : HoldLine → HoldLine) : (s.onLine f).pack = s.pack := rfl
@[simp] theorem State.onLine_store (f : HoldLine → HoldLine) : (s.onLine f).store = s.store := rfl
@[simp] theorem State.onLine_ports (f : HoldLine → HoldLine) : (s.onLine f).ports = s.ports := rfl
@[simp] theorem State.onLine_settings (f : HoldLine → HoldLine) : (s.onLine f).settings = s.settings := rfl
@[simp] theorem State.onLine_counters (f : HoldLine → HoldLine) : (s.onLine f).counters = s.counters := rfl

/-! ### onCuts -/

@[simp] theorem State.onCuts_pending (f : CutEngine → CutEngine) : (s.onCuts f).pending = s.pending := rfl
@[simp] theorem State.onCuts_now (f : CutEngine → CutEngine) : (s.onCuts f).now = s.now := rfl
@[simp] theorem State.onCuts_phase (f : CutEngine → CutEngine) : (s.onCuts f).phase = s.phase := rfl
@[simp] theorem State.onCuts_resetLine (f : CutEngine → CutEngine) : (s.onCuts f).resetLine = s.resetLine := rfl
@[simp] theorem State.onCuts_draws (f : CutEngine → CutEngine) : (s.onCuts f).draws = s.draws := rfl
@[simp] theorem State.onCuts_force (f : CutEngine → CutEngine) : (s.onCuts f).force = s.force := rfl
@[simp] theorem State.onCuts_timer (f : CutEngine → CutEngine) : (s.onCuts f).timer = s.timer := rfl
@[simp] theorem State.onCuts_ingest (f : CutEngine → CutEngine) : (s.onCuts f).ingest = s.ingest := rfl
@[simp] theorem State.onCuts_lane (f : CutEngine → CutEngine) : (s.onCuts f).lane = s.lane := rfl
@[simp] theorem State.onCuts_line (f : CutEngine → CutEngine) : (s.onCuts f).line = s.line := rfl
@[simp] theorem State.onCuts_cuts (f : CutEngine → CutEngine) : (s.onCuts f).cuts = f s.cuts := rfl
@[simp] theorem State.onCuts_pace (f : CutEngine → CutEngine) : (s.onCuts f).pace = s.pace := rfl
@[simp] theorem State.onCuts_play (f : CutEngine → CutEngine) : (s.onCuts f).play = s.play := rfl
@[simp] theorem State.onCuts_pack (f : CutEngine → CutEngine) : (s.onCuts f).pack = s.pack := rfl
@[simp] theorem State.onCuts_store (f : CutEngine → CutEngine) : (s.onCuts f).store = s.store := rfl
@[simp] theorem State.onCuts_ports (f : CutEngine → CutEngine) : (s.onCuts f).ports = s.ports := rfl
@[simp] theorem State.onCuts_settings (f : CutEngine → CutEngine) : (s.onCuts f).settings = s.settings := rfl
@[simp] theorem State.onCuts_counters (f : CutEngine → CutEngine) : (s.onCuts f).counters = s.counters := rfl

/-! ### onPace -/

@[simp] theorem State.onPace_pending (f : Pacing → Pacing) : (s.onPace f).pending = s.pending := rfl
@[simp] theorem State.onPace_now (f : Pacing → Pacing) : (s.onPace f).now = s.now := rfl
@[simp] theorem State.onPace_phase (f : Pacing → Pacing) : (s.onPace f).phase = s.phase := rfl
@[simp] theorem State.onPace_resetLine (f : Pacing → Pacing) : (s.onPace f).resetLine = s.resetLine := rfl
@[simp] theorem State.onPace_draws (f : Pacing → Pacing) : (s.onPace f).draws = s.draws := rfl
@[simp] theorem State.onPace_force (f : Pacing → Pacing) : (s.onPace f).force = s.force := rfl
@[simp] theorem State.onPace_timer (f : Pacing → Pacing) : (s.onPace f).timer = s.timer := rfl
@[simp] theorem State.onPace_ingest (f : Pacing → Pacing) : (s.onPace f).ingest = s.ingest := rfl
@[simp] theorem State.onPace_lane (f : Pacing → Pacing) : (s.onPace f).lane = s.lane := rfl
@[simp] theorem State.onPace_line (f : Pacing → Pacing) : (s.onPace f).line = s.line := rfl
@[simp] theorem State.onPace_cuts (f : Pacing → Pacing) : (s.onPace f).cuts = s.cuts := rfl
@[simp] theorem State.onPace_pace (f : Pacing → Pacing) : (s.onPace f).pace = f s.pace := rfl
@[simp] theorem State.onPace_play (f : Pacing → Pacing) : (s.onPace f).play = s.play := rfl
@[simp] theorem State.onPace_pack (f : Pacing → Pacing) : (s.onPace f).pack = s.pack := rfl
@[simp] theorem State.onPace_store (f : Pacing → Pacing) : (s.onPace f).store = s.store := rfl
@[simp] theorem State.onPace_ports (f : Pacing → Pacing) : (s.onPace f).ports = s.ports := rfl
@[simp] theorem State.onPace_settings (f : Pacing → Pacing) : (s.onPace f).settings = s.settings := rfl
@[simp] theorem State.onPace_counters (f : Pacing → Pacing) : (s.onPace f).counters = s.counters := rfl

/-! ### onPlay -/

@[simp] theorem State.onPlay_pending (f : Playout → Playout) : (s.onPlay f).pending = s.pending := rfl
@[simp] theorem State.onPlay_now (f : Playout → Playout) : (s.onPlay f).now = s.now := rfl
@[simp] theorem State.onPlay_phase (f : Playout → Playout) : (s.onPlay f).phase = s.phase := rfl
@[simp] theorem State.onPlay_resetLine (f : Playout → Playout) : (s.onPlay f).resetLine = s.resetLine := rfl
@[simp] theorem State.onPlay_draws (f : Playout → Playout) : (s.onPlay f).draws = s.draws := rfl
@[simp] theorem State.onPlay_force (f : Playout → Playout) : (s.onPlay f).force = s.force := rfl
@[simp] theorem State.onPlay_timer (f : Playout → Playout) : (s.onPlay f).timer = s.timer := rfl
@[simp] theorem State.onPlay_ingest (f : Playout → Playout) : (s.onPlay f).ingest = s.ingest := rfl
@[simp] theorem State.onPlay_lane (f : Playout → Playout) : (s.onPlay f).lane = s.lane := rfl
@[simp] theorem State.onPlay_line (f : Playout → Playout) : (s.onPlay f).line = s.line := rfl
@[simp] theorem State.onPlay_cuts (f : Playout → Playout) : (s.onPlay f).cuts = s.cuts := rfl
@[simp] theorem State.onPlay_pace (f : Playout → Playout) : (s.onPlay f).pace = s.pace := rfl
@[simp] theorem State.onPlay_play (f : Playout → Playout) : (s.onPlay f).play = f s.play := rfl
@[simp] theorem State.onPlay_pack (f : Playout → Playout) : (s.onPlay f).pack = s.pack := rfl
@[simp] theorem State.onPlay_store (f : Playout → Playout) : (s.onPlay f).store = s.store := rfl
@[simp] theorem State.onPlay_ports (f : Playout → Playout) : (s.onPlay f).ports = s.ports := rfl
@[simp] theorem State.onPlay_settings (f : Playout → Playout) : (s.onPlay f).settings = s.settings := rfl
@[simp] theorem State.onPlay_counters (f : Playout → Playout) : (s.onPlay f).counters = s.counters := rfl

/-! ### onPack -/

@[simp] theorem State.onPack_pending (f : Packetizer → Packetizer) : (s.onPack f).pending = s.pending := rfl
@[simp] theorem State.onPack_now (f : Packetizer → Packetizer) : (s.onPack f).now = s.now := rfl
@[simp] theorem State.onPack_phase (f : Packetizer → Packetizer) : (s.onPack f).phase = s.phase := rfl
@[simp] theorem State.onPack_resetLine (f : Packetizer → Packetizer) : (s.onPack f).resetLine = s.resetLine := rfl
@[simp] theorem State.onPack_draws (f : Packetizer → Packetizer) : (s.onPack f).draws = s.draws := rfl
@[simp] theorem State.onPack_force (f : Packetizer → Packetizer) : (s.onPack f).force = s.force := rfl
@[simp] theorem State.onPack_timer (f : Packetizer → Packetizer) : (s.onPack f).timer = s.timer := rfl
@[simp] theorem State.onPack_ingest (f : Packetizer → Packetizer) : (s.onPack f).ingest = s.ingest := rfl
@[simp] theorem State.onPack_lane (f : Packetizer → Packetizer) : (s.onPack f).lane = s.lane := rfl
@[simp] theorem State.onPack_line (f : Packetizer → Packetizer) : (s.onPack f).line = s.line := rfl
@[simp] theorem State.onPack_cuts (f : Packetizer → Packetizer) : (s.onPack f).cuts = s.cuts := rfl
@[simp] theorem State.onPack_pace (f : Packetizer → Packetizer) : (s.onPack f).pace = s.pace := rfl
@[simp] theorem State.onPack_play (f : Packetizer → Packetizer) : (s.onPack f).play = s.play := rfl
@[simp] theorem State.onPack_pack (f : Packetizer → Packetizer) : (s.onPack f).pack = f s.pack := rfl
@[simp] theorem State.onPack_store (f : Packetizer → Packetizer) : (s.onPack f).store = s.store := rfl
@[simp] theorem State.onPack_ports (f : Packetizer → Packetizer) : (s.onPack f).ports = s.ports := rfl
@[simp] theorem State.onPack_settings (f : Packetizer → Packetizer) : (s.onPack f).settings = s.settings := rfl
@[simp] theorem State.onPack_counters (f : Packetizer → Packetizer) : (s.onPack f).counters = s.counters := rfl

/-! ### onStore -/

@[simp] theorem State.onStore_pending (f : Store → Store) : (s.onStore f).pending = s.pending := rfl
@[simp] theorem State.onStore_now (f : Store → Store) : (s.onStore f).now = s.now := rfl
@[simp] theorem State.onStore_phase (f : Store → Store) : (s.onStore f).phase = s.phase := rfl
@[simp] theorem State.onStore_resetLine (f : Store → Store) : (s.onStore f).resetLine = s.resetLine := rfl
@[simp] theorem State.onStore_draws (f : Store → Store) : (s.onStore f).draws = s.draws := rfl
@[simp] theorem State.onStore_force (f : Store → Store) : (s.onStore f).force = s.force := rfl
@[simp] theorem State.onStore_timer (f : Store → Store) : (s.onStore f).timer = s.timer := rfl
@[simp] theorem State.onStore_ingest (f : Store → Store) : (s.onStore f).ingest = s.ingest := rfl
@[simp] theorem State.onStore_lane (f : Store → Store) : (s.onStore f).lane = s.lane := rfl
@[simp] theorem State.onStore_line (f : Store → Store) : (s.onStore f).line = s.line := rfl
@[simp] theorem State.onStore_cuts (f : Store → Store) : (s.onStore f).cuts = s.cuts := rfl
@[simp] theorem State.onStore_pace (f : Store → Store) : (s.onStore f).pace = s.pace := rfl
@[simp] theorem State.onStore_play (f : Store → Store) : (s.onStore f).play = s.play := rfl
@[simp] theorem State.onStore_pack (f : Store → Store) : (s.onStore f).pack = s.pack := rfl
@[simp] theorem State.onStore_store (f : Store → Store) : (s.onStore f).store = f s.store := rfl
@[simp] theorem State.onStore_ports (f : Store → Store) : (s.onStore f).ports = s.ports := rfl
@[simp] theorem State.onStore_settings (f : Store → Store) : (s.onStore f).settings = s.settings := rfl
@[simp] theorem State.onStore_counters (f : Store → Store) : (s.onStore f).counters = s.counters := rfl

/-! ### onPorts -/

@[simp] theorem State.onPorts_pending (f : Ports → Ports) : (s.onPorts f).pending = s.pending := rfl
@[simp] theorem State.onPorts_now (f : Ports → Ports) : (s.onPorts f).now = s.now := rfl
@[simp] theorem State.onPorts_phase (f : Ports → Ports) : (s.onPorts f).phase = s.phase := rfl
@[simp] theorem State.onPorts_resetLine (f : Ports → Ports) : (s.onPorts f).resetLine = s.resetLine := rfl
@[simp] theorem State.onPorts_draws (f : Ports → Ports) : (s.onPorts f).draws = s.draws := rfl
@[simp] theorem State.onPorts_force (f : Ports → Ports) : (s.onPorts f).force = s.force := rfl
@[simp] theorem State.onPorts_timer (f : Ports → Ports) : (s.onPorts f).timer = s.timer := rfl
@[simp] theorem State.onPorts_ingest (f : Ports → Ports) : (s.onPorts f).ingest = s.ingest := rfl
@[simp] theorem State.onPorts_lane (f : Ports → Ports) : (s.onPorts f).lane = s.lane := rfl
@[simp] theorem State.onPorts_line (f : Ports → Ports) : (s.onPorts f).line = s.line := rfl
@[simp] theorem State.onPorts_cuts (f : Ports → Ports) : (s.onPorts f).cuts = s.cuts := rfl
@[simp] theorem State.onPorts_pace (f : Ports → Ports) : (s.onPorts f).pace = s.pace := rfl
@[simp] theorem State.onPorts_play (f : Ports → Ports) : (s.onPorts f).play = s.play := rfl
@[simp] theorem State.onPorts_pack (f : Ports → Ports) : (s.onPorts f).pack = s.pack := rfl
@[simp] theorem State.onPorts_store (f : Ports → Ports) : (s.onPorts f).store = s.store := rfl
@[simp] theorem State.onPorts_ports (f : Ports → Ports) : (s.onPorts f).ports = f s.ports := rfl
@[simp] theorem State.onPorts_settings (f : Ports → Ports) : (s.onPorts f).settings = s.settings := rfl
@[simp] theorem State.onPorts_counters (f : Ports → Ports) : (s.onPorts f).counters = s.counters := rfl

/-! ### onSettings -/

@[simp] theorem State.onSettings_pending (f : Settings → Settings) : (s.onSettings f).pending = s.pending := rfl
@[simp] theorem State.onSettings_now (f : Settings → Settings) : (s.onSettings f).now = s.now := rfl
@[simp] theorem State.onSettings_phase (f : Settings → Settings) : (s.onSettings f).phase = s.phase := rfl
@[simp] theorem State.onSettings_resetLine (f : Settings → Settings) : (s.onSettings f).resetLine = s.resetLine := rfl
@[simp] theorem State.onSettings_draws (f : Settings → Settings) : (s.onSettings f).draws = s.draws := rfl
@[simp] theorem State.onSettings_force (f : Settings → Settings) : (s.onSettings f).force = s.force := rfl
@[simp] theorem State.onSettings_timer (f : Settings → Settings) : (s.onSettings f).timer = s.timer := rfl
@[simp] theorem State.onSettings_ingest (f : Settings → Settings) : (s.onSettings f).ingest = s.ingest := rfl
@[simp] theorem State.onSettings_lane (f : Settings → Settings) : (s.onSettings f).lane = s.lane := rfl
@[simp] theorem State.onSettings_line (f : Settings → Settings) : (s.onSettings f).line = s.line := rfl
@[simp] theorem State.onSettings_cuts (f : Settings → Settings) : (s.onSettings f).cuts = s.cuts := rfl
@[simp] theorem State.onSettings_pace (f : Settings → Settings) : (s.onSettings f).pace = s.pace := rfl
@[simp] theorem State.onSettings_play (f : Settings → Settings) : (s.onSettings f).play = s.play := rfl
@[simp] theorem State.onSettings_pack (f : Settings → Settings) : (s.onSettings f).pack = s.pack := rfl
@[simp] theorem State.onSettings_store (f : Settings → Settings) : (s.onSettings f).store = s.store := rfl
@[simp] theorem State.onSettings_ports (f : Settings → Settings) : (s.onSettings f).ports = s.ports := rfl
@[simp] theorem State.onSettings_settings (f : Settings → Settings) : (s.onSettings f).settings = f s.settings := rfl
@[simp] theorem State.onSettings_counters (f : Settings → Settings) : (s.onSettings f).counters = s.counters := rfl

/-! ### onCounters -/

@[simp] theorem State.onCounters_pending (f : Counters → Counters) : (s.onCounters f).pending = s.pending := rfl
@[simp] theorem State.onCounters_now (f : Counters → Counters) : (s.onCounters f).now = s.now := rfl
@[simp] theorem State.onCounters_phase (f : Counters → Counters) : (s.onCounters f).phase = s.phase := rfl
@[simp] theorem State.onCounters_resetLine (f : Counters → Counters) : (s.onCounters f).resetLine = s.resetLine := rfl
@[simp] theorem State.onCounters_draws (f : Counters → Counters) : (s.onCounters f).draws = s.draws := rfl
@[simp] theorem State.onCounters_force (f : Counters → Counters) : (s.onCounters f).force = s.force := rfl
@[simp] theorem State.onCounters_timer (f : Counters → Counters) : (s.onCounters f).timer = s.timer := rfl
@[simp] theorem State.onCounters_ingest (f : Counters → Counters) : (s.onCounters f).ingest = s.ingest := rfl
@[simp] theorem State.onCounters_lane (f : Counters → Counters) : (s.onCounters f).lane = s.lane := rfl
@[simp] theorem State.onCounters_line (f : Counters → Counters) : (s.onCounters f).line = s.line := rfl
@[simp] theorem State.onCounters_cuts (f : Counters → Counters) : (s.onCounters f).cuts = s.cuts := rfl
@[simp] theorem State.onCounters_pace (f : Counters → Counters) : (s.onCounters f).pace = s.pace := rfl
@[simp] theorem State.onCounters_play (f : Counters → Counters) : (s.onCounters f).play = s.play := rfl
@[simp] theorem State.onCounters_pack (f : Counters → Counters) : (s.onCounters f).pack = s.pack := rfl
@[simp] theorem State.onCounters_store (f : Counters → Counters) : (s.onCounters f).store = s.store := rfl
@[simp] theorem State.onCounters_ports (f : Counters → Counters) : (s.onCounters f).ports = s.ports := rfl
@[simp] theorem State.onCounters_settings (f : Counters → Counters) : (s.onCounters f).settings = s.settings := rfl
@[simp] theorem State.onCounters_counters (f : Counters → Counters) : (s.onCounters f).counters = f s.counters := rfl

/-! ### onForce -/

@[simp] theorem State.onForce_pending (f : Params → Params) : (s.onForce f).pending = s.pending := rfl
@[simp] theorem State.onForce_now (f : Params → Params) : (s.onForce f).now = s.now := rfl
@[simp] theorem State.onForce_phase (f : Params → Params) : (s.onForce f).phase = s.phase := rfl
@[simp] theorem State.onForce_resetLine (f : Params → Params) : (s.onForce f).resetLine = s.resetLine := rfl
@[simp] theorem State.onForce_draws (f : Params → Params) : (s.onForce f).draws = s.draws := rfl
@[simp] theorem State.onForce_force (f : Params → Params) : (s.onForce f).force = f s.force := rfl
@[simp] theorem State.onForce_timer (f : Params → Params) : (s.onForce f).timer = s.timer := rfl
@[simp] theorem State.onForce_ingest (f : Params → Params) : (s.onForce f).ingest = s.ingest := rfl
@[simp] theorem State.onForce_lane (f : Params → Params) : (s.onForce f).lane = s.lane := rfl
@[simp] theorem State.onForce_line (f : Params → Params) : (s.onForce f).line = s.line := rfl
@[simp] theorem State.onForce_cuts (f : Params → Params) : (s.onForce f).cuts = s.cuts := rfl
@[simp] theorem State.onForce_pace (f : Params → Params) : (s.onForce f).pace = s.pace := rfl
@[simp] theorem State.onForce_play (f : Params → Params) : (s.onForce f).play = s.play := rfl
@[simp] theorem State.onForce_pack (f : Params → Params) : (s.onForce f).pack = s.pack := rfl
@[simp] theorem State.onForce_store (f : Params → Params) : (s.onForce f).store = s.store := rfl
@[simp] theorem State.onForce_ports (f : Params → Params) : (s.onForce f).ports = s.ports := rfl
@[simp] theorem State.onForce_settings (f : Params → Params) : (s.onForce f).settings = s.settings := rfl
@[simp] theorem State.onForce_counters (f : Params → Params) : (s.onForce f).counters = s.counters := rfl

/-! ### atTime -/

@[simp] theorem State.atTime_pending (due : Nat) : (s.atTime due).pending = s.pending := rfl
@[simp] theorem State.atTime_now (due : Nat) : (s.atTime due).now = max s.now due := rfl
@[simp] theorem State.atTime_phase (due : Nat) : (s.atTime due).phase = s.phase := rfl
@[simp] theorem State.atTime_resetLine (due : Nat) : (s.atTime due).resetLine = s.resetLine := rfl
@[simp] theorem State.atTime_draws (due : Nat) : (s.atTime due).draws = s.draws := rfl
@[simp] theorem State.atTime_force (due : Nat) : (s.atTime due).force = s.force := rfl
@[simp] theorem State.atTime_timer (due : Nat) : (s.atTime due).timer = s.timer := rfl
@[simp] theorem State.atTime_ingest (due : Nat) : (s.atTime due).ingest = s.ingest := rfl
@[simp] theorem State.atTime_lane (due : Nat) : (s.atTime due).lane = s.lane := rfl
@[simp] theorem State.atTime_line (due : Nat) : (s.atTime due).line = s.line := rfl
@[simp] theorem State.atTime_cuts (due : Nat) : (s.atTime due).cuts = s.cuts := rfl
@[simp] theorem State.atTime_pace (due : Nat) : (s.atTime due).pace = s.pace := rfl
@[simp] theorem State.atTime_play (due : Nat) : (s.atTime due).play = s.play := rfl
@[simp] theorem State.atTime_pack (due : Nat) : (s.atTime due).pack = s.pack := rfl
@[simp] theorem State.atTime_store (due : Nat) : (s.atTime due).store = s.store := rfl
@[simp] theorem State.atTime_ports (due : Nat) : (s.atTime due).ports = s.ports := rfl
@[simp] theorem State.atTime_settings (due : Nat) : (s.atTime due).settings = s.settings := rfl
@[simp] theorem State.atTime_counters (due : Nat) : (s.atTime due).counters = s.counters := rfl

/-! ### drawn -/

@[simp] theorem State.drawn_pending : (s.drawn).pending = s.pending := rfl
@[simp] theorem State.drawn_now : (s.drawn).now = s.now := rfl
@[simp] theorem State.drawn_phase : (s.drawn).phase = s.phase := rfl
@[simp] theorem State.drawn_resetLine : (s.drawn).resetLine = s.resetLine := rfl
@[simp] theorem State.drawn_draws : (s.drawn).draws = s.draws + 1 := rfl
@[simp] theorem State.drawn_force : (s.drawn).force = s.force := rfl
@[simp] theorem State.drawn_timer : (s.drawn).timer = s.timer := rfl
@[simp] theorem State.drawn_ingest : (s.drawn).ingest = s.ingest := rfl
@[simp] theorem State.drawn_lane : (s.drawn).lane = s.lane := rfl
@[simp] theorem State.drawn_line : (s.drawn).line = s.line := rfl
@[simp] theorem State.drawn_cuts : (s.drawn).cuts = s.cuts := rfl
@[simp] theorem State.drawn_pace : (s.drawn).pace = s.pace := rfl
@[simp] theorem State.drawn_play : (s.drawn).play = s.play := rfl
@[simp] theorem State.drawn_pack : (s.drawn).pack = s.pack := rfl
@[simp] theorem State.drawn_store : (s.drawn).store = s.store := rfl
@[simp] theorem State.drawn_ports : (s.drawn).ports = s.ports := rfl
@[simp] theorem State.drawn_settings : (s.drawn).settings = s.settings := rfl
@[simp] theorem State.drawn_counters : (s.drawn).counters = s.counters := rfl

/-! ### setPhase -/

@[simp] theorem State.setPhase_pending (p : Phase) : (s.setPhase p).pending = s.pending := rfl
@[simp] theorem State.setPhase_now (p : Phase) : (s.setPhase p).now = s.now := rfl
@[simp] theorem State.setPhase_phase (p : Phase) : (s.setPhase p).phase = p := rfl
@[simp] theorem State.setPhase_resetLine (p : Phase) : (s.setPhase p).resetLine = s.resetLine := rfl
@[simp] theorem State.setPhase_draws (p : Phase) : (s.setPhase p).draws = s.draws := rfl
@[simp] theorem State.setPhase_force (p : Phase) : (s.setPhase p).force = s.force := rfl
@[simp] theorem State.setPhase_timer (p : Phase) : (s.setPhase p).timer = s.timer := rfl
@[simp] theorem State.setPhase_ingest (p : Phase) : (s.setPhase p).ingest = s.ingest := rfl
@[simp] theorem State.setPhase_lane (p : Phase) : (s.setPhase p).lane = s.lane := rfl
@[simp] theorem State.setPhase_line (p : Phase) : (s.setPhase p).line = s.line := rfl
@[simp] theorem State.setPhase_cuts (p : Phase) : (s.setPhase p).cuts = s.cuts := rfl
@[simp] theorem State.setPhase_pace (p : Phase) : (s.setPhase p).pace = s.pace := rfl
@[simp] theorem State.setPhase_play (p : Phase) : (s.setPhase p).play = s.play := rfl
@[simp] theorem State.setPhase_pack (p : Phase) : (s.setPhase p).pack = s.pack := rfl
@[simp] theorem State.setPhase_store (p : Phase) : (s.setPhase p).store = s.store := rfl
@[simp] theorem State.setPhase_ports (p : Phase) : (s.setPhase p).ports = s.ports := rfl
@[simp] theorem State.setPhase_settings (p : Phase) : (s.setPhase p).settings = s.settings := rfl
@[simp] theorem State.setPhase_counters (p : Phase) : (s.setPhase p).counters = s.counters := rfl

/-! ### setResetLine -/

@[simp] theorem State.setResetLine_pending (h : Bool) : (s.setResetLine h).pending = s.pending := rfl
@[simp] theorem State.setResetLine_now (h : Bool) : (s.setResetLine h).now = s.now := rfl
@[simp] theorem State.setResetLine_phase (h : Bool) : (s.setResetLine h).phase = s.phase := rfl
@[simp] theorem State.setResetLine_resetLine (h : Bool) : (s.setResetLine h).resetLine = h := rfl
@[simp] theorem State.setResetLine_draws (h : Bool) : (s.setResetLine h).draws = s.draws := rfl
@[simp] theorem State.setResetLine_force (h : Bool) : (s.setResetLine h).force = s.force := rfl
@[simp] theorem State.setResetLine_timer (h : Bool) : (s.setResetLine h).timer = s.timer := rfl
@[simp] theorem State.setResetLine_ingest (h : Bool) : (s.setResetLine h).ingest = s.ingest := rfl
@[simp] theorem State.setResetLine_lane (h : Bool) : (s.setResetLine h).lane = s.lane := rfl
@[simp] theorem State.setResetLine_line (h : Bool) : (s.setResetLine h).line = s.line := rfl
@[simp] theorem State.setResetLine_cuts (h : Bool) : (s.setResetLine h).cuts = s.cuts := rfl
@[simp] theorem State.setResetLine_pace (h : Bool) : (s.setResetLine h).pace = s.pace := rfl
@[simp] theorem State.setResetLine_play (h : Bool) : (s.setResetLine h).play = s.play := rfl
@[simp] theorem State.setResetLine_pack (h : Bool) : (s.setResetLine h).pack = s.pack := rfl
@[simp] theorem State.setResetLine_store (h : Bool) : (s.setResetLine h).store = s.store := rfl
@[simp] theorem State.setResetLine_ports (h : Bool) : (s.setResetLine h).ports = s.ports := rfl
@[simp] theorem State.setResetLine_settings (h : Bool) : (s.setResetLine h).settings = s.settings := rfl
@[simp] theorem State.setResetLine_counters (h : Bool) : (s.setResetLine h).counters = s.counters := rfl

/-! ### withPending -/

@[simp] theorem State.withPending_pending (cs : List Instr) : (s.withPending cs).pending = cs := rfl
@[simp] theorem State.withPending_now (cs : List Instr) : (s.withPending cs).now = s.now := rfl
@[simp] theorem State.withPending_phase (cs : List Instr) : (s.withPending cs).phase = s.phase := rfl
@[simp] theorem State.withPending_resetLine (cs : List Instr) : (s.withPending cs).resetLine = s.resetLine := rfl
@[simp] theorem State.withPending_draws (cs : List Instr) : (s.withPending cs).draws = s.draws := rfl
@[simp] theorem State.withPending_force (cs : List Instr) : (s.withPending cs).force = s.force := rfl
@[simp] theorem State.withPending_timer (cs : List Instr) : (s.withPending cs).timer = s.timer := rfl
@[simp] theorem State.withPending_ingest (cs : List Instr) : (s.withPending cs).ingest = s.ingest := rfl
@[simp] theorem State.withPending_lane (cs : List Instr) : (s.withPending cs).lane = s.lane := rfl
@[simp] theorem State.withPending_line (cs : List Instr) : (s.withPending cs).line = s.line := rfl
@[simp] theorem State.withPending_cuts (cs : List Instr) : (s.withPending cs).cuts = s.cuts := rfl
@[simp] theorem State.withPending_pace (cs : List Instr) : (s.withPending cs).pace = s.pace := rfl
@[simp] theorem State.withPending_play (cs : List Instr) : (s.withPending cs).play = s.play := rfl
@[simp] theorem State.withPending_pack (cs : List Instr) : (s.withPending cs).pack = s.pack := rfl
@[simp] theorem State.withPending_store (cs : List Instr) : (s.withPending cs).store = s.store := rfl
@[simp] theorem State.withPending_ports (cs : List Instr) : (s.withPending cs).ports = s.ports := rfl
@[simp] theorem State.withPending_settings (cs : List Instr) : (s.withPending cs).settings = s.settings := rfl
@[simp] theorem State.withPending_counters (cs : List Instr) : (s.withPending cs).counters = s.counters := rfl

/-! ### idle -/

@[simp] theorem State.idle_pending : (s.idle).pending = s.pending := rfl
@[simp] theorem State.idle_now : (s.idle).now = s.now + 1 := rfl
@[simp] theorem State.idle_phase : (s.idle).phase = s.phase := rfl
@[simp] theorem State.idle_resetLine : (s.idle).resetLine = s.resetLine := rfl
@[simp] theorem State.idle_draws : (s.idle).draws = s.draws := rfl
@[simp] theorem State.idle_force : (s.idle).force = s.force := rfl
@[simp] theorem State.idle_timer : (s.idle).timer = s.timer := rfl
@[simp] theorem State.idle_ingest : (s.idle).ingest = s.ingest := rfl
@[simp] theorem State.idle_lane : (s.idle).lane = s.lane := rfl
@[simp] theorem State.idle_line : (s.idle).line = s.line := rfl
@[simp] theorem State.idle_cuts : (s.idle).cuts = s.cuts := rfl
@[simp] theorem State.idle_pace : (s.idle).pace = s.pace := rfl
@[simp] theorem State.idle_play : (s.idle).play = s.play := rfl
@[simp] theorem State.idle_pack : (s.idle).pack = s.pack := rfl
@[simp] theorem State.idle_store : (s.idle).store = s.store := rfl
@[simp] theorem State.idle_ports : (s.idle).ports = s.ports := rfl
@[simp] theorem State.idle_settings : (s.idle).settings = s.settings := rfl
@[simp] theorem State.idle_counters : (s.idle).counters = s.counters := rfl

/-! ### onPort -/

@[simp] theorem State.onPort_pending (p : Port) (f : PortState → PortState) : (s.onPort p f).pending = s.pending := rfl
@[simp] theorem State.onPort_now (p : Port) (f : PortState → PortState) : (s.onPort p f).now = s.now := rfl
@[simp] theorem State.onPort_phase (p : Port) (f : PortState → PortState) : (s.onPort p f).phase = s.phase := rfl
@[simp] theorem State.onPort_resetLine (p : Port) (f : PortState → PortState) : (s.onPort p f).resetLine = s.resetLine := rfl
@[simp] theorem State.onPort_draws (p : Port) (f : PortState → PortState) : (s.onPort p f).draws = s.draws := rfl
@[simp] theorem State.onPort_force (p : Port) (f : PortState → PortState) : (s.onPort p f).force = s.force := rfl
@[simp] theorem State.onPort_timer (p : Port) (f : PortState → PortState) : (s.onPort p f).timer = s.timer := rfl
@[simp] theorem State.onPort_ingest (p : Port) (f : PortState → PortState) : (s.onPort p f).ingest = s.ingest := rfl
@[simp] theorem State.onPort_lane (p : Port) (f : PortState → PortState) : (s.onPort p f).lane = s.lane := rfl
@[simp] theorem State.onPort_line (p : Port) (f : PortState → PortState) : (s.onPort p f).line = s.line := rfl
@[simp] theorem State.onPort_cuts (p : Port) (f : PortState → PortState) : (s.onPort p f).cuts = s.cuts := rfl
@[simp] theorem State.onPort_pace (p : Port) (f : PortState → PortState) : (s.onPort p f).pace = s.pace := rfl
@[simp] theorem State.onPort_play (p : Port) (f : PortState → PortState) : (s.onPort p f).play = s.play := rfl
@[simp] theorem State.onPort_pack (p : Port) (f : PortState → PortState) : (s.onPort p f).pack = s.pack := rfl
@[simp] theorem State.onPort_store (p : Port) (f : PortState → PortState) : (s.onPort p f).store = s.store := rfl
@[simp] theorem State.onPort_ports (p : Port) (f : PortState → PortState) : (s.onPort p f).ports = s.ports.put p (f (s.ports.get p)) := rfl
@[simp] theorem State.onPort_settings (p : Port) (f : PortState → PortState) : (s.onPort p f).settings = s.settings := rfl
@[simp] theorem State.onPort_counters (p : Port) (f : PortState → PortState) : (s.onPort p f).counters = s.counters := rfl

/-! ### Ports -/

@[simp] theorem Ports.get_put (ps : Ports) (p : Port) (x : PortState) : (ps.put p x).get p = x := by cases p <;> rfl

theorem Ports.get_put_ne (ps : Ports) {p q : Port} (h : q ≠ p) (x : PortState) : (ps.put p x).get q = ps.get q := by
  cases p <;> cases q <;> first | rfl | exact absurd rfl h

@[simp] theorem Ports.put_table (ps : Ports) (p : Port) (x : PortState) : (ps.put p x).table = ps.table := by
  cases p <;> rfl

@[simp] theorem Ports.put_waiting (ps : Ports) (p : Port) (x : PortState) : (ps.put p x).waiting = ps.waiting := by
  cases p <;> rfl

@[simp] theorem Ports.put_get (ps : Ports) (p : Port) : ps.put p (ps.get p) = ps := by cases p <;> rfl

@[simp] theorem Ports.put_put (ps : Ports) (p : Port) (x y : PortState) : (ps.put p x).put p y = ps.put p y := by
  cases p <;> rfl

end Sys2Proof.Machine
end

