-- ==== Sys2Proof/Laws/Frame.lean ====
section
/-! SUPPORT. What each shared operation leaves alone: one lemma per operation, from which the frame of a command
follows. -/

namespace Sys2Proof.Machine

set_option Elab.async false

/-! ### Agreement -/

theorem Agrees.refl (l : List Block) (s : State) : Agrees l s s := fun _ _ => rfl

/-- A further operation that touches no more than is allowed. -/
theorem Agrees.andThen {T l : List Block} {s t u : State} (h : Agrees T s t) (g : Agrees l t u)
    (hl : l.all T.contains = true := by decide) : Agrees T s u := by
  intro b hb
  rw [← h b hb]
  refine g b ?_
  cases hc : l.contains b with
  | false => rfl
  | true =>
    have := List.all_eq_true.mp hl b (List.contains_iff_mem.mp hc)
    rw [this] at hb
    cases hb

/-- What touches less touches no more. -/
theorem Agrees.mono {T l : List Block} {s t : State} (h : Agrees l s t) (hl : l.all T.contains = true := by decide) :
    Agrees T s t := (Agrees.refl T s).andThen h hl

theorem Agrees.ite {T : List Block} {s t u : State} {c : Prop} [Decidable c] (h : Agrees T s t) (g : Agrees T s u) :
    Agrees T s (if c then t else u) := by
  split
  · exact h
  · exact g

/-- A run of operations, each of which touches no more than is allowed. -/
theorem Agrees.foldl {α : Type} {T : List Block} {f : State → α → State} (h : ∀ s a, Agrees T s (f s a)) :
    ∀ (xs : List α) (s : State), Agrees T s (xs.foldl f s)
  | [], s => Agrees.refl T s
  | x :: xs, s => fun b hb => by
    rw [List.foldl_cons, Agrees.foldl h xs (f s x) b hb, h s x b hb]

/-! ### One block -/

variable (s : State)

theorem State.onTimer_agrees (f : Timer → Timer) : Agrees [.timer] s (s.onTimer f) := by
  intro b hb; cases b <;> first | rfl | cases hb
theorem State.onIngest_agrees (f : Ingest → Ingest) : Agrees [.ingest] s (s.onIngest f) := by
  intro b hb; cases b <;> first | rfl | cases hb
theorem State.onLane_agrees (f : Lane → Lane) : Agrees [.lane] s (s.onLane f) := by
  intro b hb; cases b <;> first | rfl | cases hb
theorem State.onLine_agrees (f : HoldLine → HoldLine) : Agrees [.line] s (s.onLine f) := by
  intro b hb; cases b <;> first | rfl | cases hb
theorem State.onCuts_agrees (f : CutEngine → CutEngine) : Agrees [.cuts] s (s.onCuts f) := by
  intro b hb; cases b <;> first | rfl | cases hb
theorem State.onPace_agrees (f : Pacing → Pacing) : Agrees [.pace] s (s.onPace f) := by
  intro b hb; cases b <;> first | rfl | cases hb
theorem State.onPlay_agrees (f : Playout → Playout) : Agrees [.play] s (s.onPlay f) := by
  intro b hb; cases b <;> first | rfl | cases hb
theorem State.onPack_agrees (f : Packetizer → Packetizer) : Agrees [.pack] s (s.onPack f) := by
  intro b hb; cases b <;> first | rfl | cases hb
theorem State.onStore_agrees (f : Store → Store) : Agrees [.store] s (s.onStore f) := by
  intro b hb; cases b <;> first | rfl | cases hb
theorem State.onPorts_agrees (f : Ports → Ports) : Agrees [.ports] s (s.onPorts f) := by
  intro b hb; cases b <;> first | rfl | cases hb
theorem State.onSettings_agrees (f : Settings → Settings) : Agrees [.settings] s (s.onSettings f) := by
  intro b hb; cases b <;> first | rfl | cases hb
theorem State.onCounters_agrees (f : Counters → Counters) : Agrees [.counters] s (s.onCounters f) := by
  intro b hb; cases b <;> first | rfl | cases hb
theorem State.onForce_agrees (f : Params → Params) : Agrees [.force] s (s.onForce f) := by
  intro b hb; cases b <;> first | rfl | cases hb
theorem State.at_agrees (due : Nat) : Agrees [.now] s (s.atTime due) := by
  intro b hb; cases b <;> first | rfl | cases hb
theorem State.drawn_agrees : Agrees [.draws] s s.drawn := by
  intro b hb; cases b <;> first | rfl | cases hb
theorem State.setResetLine_agrees (h : Bool) : Agrees [.resetLine] s (s.setResetLine h) := by
  intro b hb; cases b <;> first | rfl | cases hb
theorem State.setPhase_agrees (p : Phase) : Agrees [.phase] s (s.setPhase p) := by
  intro b hb; cases b <;> first | rfl | cases hb
theorem State.onPort_agrees (p : Port) (f : PortState → PortState) : Agrees [.ports] s (s.onPort p f) :=
  State.onPorts_agrees s _

/-! ### Notices, replies and requests -/

theorem raiseOn_agrees (n : Notice) (p : Port) : Agrees [.ports, .counters] s (raiseOn n s p) := by
  unfold raiseOn
  simp only
  split
  · exact Agrees.refl _ s
  split
  · exact ((State.onPort_agrees s p _).mono).andThen (State.onCounters_agrees _ _)
  · exact (State.onPort_agrees s p _).mono

theorem raise_agrees (n : Notice) : Agrees [.ports, .counters] s (raise n s) :=
  ((raiseOn_agrees s n .a).andThen (raiseOn_agrees _ n .b)).andThen (raiseOn_agrees _ n .n)

theorem raiseGoverned_agrees (i : Isn) (n : Notice) : Agrees [.line, .ports, .counters] s (raiseGoverned i n s) := by
  unfold raiseGoverned
  split
  · exact Agrees.refl _ s
  split
  · exact Agrees.refl _ s
  · exact ((State.onLine_agrees s _).mono).andThen (raise_agrees _ n)

theorem queueReply_agrees (p : Port) (r : Reply) : Agrees [.ports] s (queueReply p r s) := State.onPort_agrees s p _

theorem takeRouted_agrees {T : List Block} (p : Port) (form : Request → Bool) (take : Request → State → State)
    (h : ∀ r s, Agrees T s (take r s)) (hT : T.contains .ports = true := by decide) :
    Agrees T s (takeRouted p form take s) := by
  unfold takeRouted
  split
  · split
    · exact Agrees.refl _ s
    · split
      · refine Agrees.andThen (l := T) ?_ (h _ _) ?_
        · refine (State.onPort_agrees s p _).mono ?_
          simpa using hT
        · exact List.all_eq_true.mpr fun b hb => List.contains_iff_mem.mpr hb
      · exact Agrees.refl _ s
  · exact Agrees.refl _ s

theorem takeLine_agrees (p : Port) (l : QueuedLine) : Agrees [.ports] s (takeLine p l s) := by
  unfold takeLine route
  split
  · exact queueReply_agrees s p _
  · simp only
    split
    · exact (State.onPorts_agrees s _).andThen (State.onPort_agrees _ p _)
    · split
      · exact queueReply_agrees s p _
      · split
        · exact (State.onPorts_agrees s _).andThen (State.onPort_agrees _ p _)
        · exact (State.onPorts_agrees s _).andThen (queueReply_agrees _ p _)

theorem takeLines_agrees (p : Port) : ∀ (k : Nat) (s : State), Agrees [.ports] s (takeLines k p s)
  | 0, s => Agrees.refl _ s
  | k + 1, s => by
    unfold takeLines
    split
    · exact ((State.onPort_agrees s p _).andThen (takeLine_agrees _ p _)).andThen (takeLines_agrees p k _)
    · exact Agrees.refl _ s

theorem completeLine_agrees (p : Port) (l : QueuedLine) : Agrees [.ports] s (completeLine p l s) := by
  unfold completeLine
  simp only
  split
  · split
    · exact Agrees.refl _ s
    · exact queueReply_agrees s p _
  · exact (State.onPort_agrees s p _).andThen (takeLines_agrees p _ _)

theorem answerWith_agrees (e : ReplyEffect) (p : Port) (w : ResultWord) (fs : List Field) :
    Agrees [.ports] s (answerWith e p w fs s) := by
  unfold answerWith
  split
  · exact Agrees.refl _ s
  · exact ((State.onPort_agrees s p _).andThen (queueReply_agrees _ p _)).andThen (takeLines_agrees p _ _)

theorem answer_agrees (p : Port) (w : ResultWord) (fs : List Field) : Agrees [.ports] s (answer p w fs s) :=
  answerWith_agrees s .nothing p w fs

/-! ### Counters -/

theorem countAccepted_agrees : Agrees [.counters] s (countAccepted s) := State.onCounters_agrees s _
theorem countLate_agrees : Agrees [.counters] s (countLate s) := State.onCounters_agrees s _
theorem countEarly_agrees : Agrees [.counters] s (countEarly s) := State.onCounters_agrees s _
theorem countDuplicate_agrees : Agrees [.counters] s (countDuplicate s) := State.onCounters_agrees s _
theorem countMalformed_agrees : Agrees [.counters] s (countMalformed s) := State.onCounters_agrees s _
theorem countChecksum_agrees : Agrees [.counters] s (countChecksum s) := State.onCounters_agrees s _
theorem countPartial_agrees : Agrees [.counters] s (countPartial s) := State.onCounters_agrees s _
theorem countLoss_agrees : Agrees [.counters] s (countLoss s) := State.onCounters_agrees s _
theorem countRepeat_agrees : Agrees [.counters] s (countRepeat s) := State.onCounters_agrees s _
theorem countSkip_agrees : Agrees [.counters] s (countSkip s) := State.onCounters_agrees s _
theorem countSheds_agrees (k : Nat) : Agrees [.counters] s (countSheds k s) := State.onCounters_agrees s _
theorem countFreeze_agrees : Agrees [.counters] s (countFreeze s) := State.onCounters_agrees s _
theorem countLateFetch_agrees : Agrees [.counters] s (countLateFetch s) := State.onCounters_agrees s _
theorem countCaptionsCut_agrees : Agrees [.counters] s (countCaptionsCut s) := State.onCounters_agrees s _
theorem countRetry_agrees : Agrees [.counters] s (countRetry s) := State.onCounters_agrees s _
theorem countFault_agrees : Agrees [.counters] s (countFault s) := State.onCounters_agrees s _
theorem countCorrected_agrees (k : Nat) : Agrees [.counters] s (countCorrected k s) := State.onCounters_agrees s _

/-! ### Store and playout buffer -/

theorem grantNext_agrees : Agrees [.store] s (grantNext s) := State.onStore_agrees s _

theorem request_agrees (job : StoreJob) : Agrees [.store] s (request job s) :=
  (State.onStore_agrees s _).andThen (grantNext_agrees _)

theorem onBuf_agrees (i : Nat) (f : BufSlot → BufSlot) : Agrees [.play] s (onBuf i f s) := State.onPlay_agrees s _

theorem issueCover_agrees (i : Nat) (r : Rec) (n pos : Nat) : Agrees [.store, .play] s (issueCover i r n pos s) := by
  unfold issueCover
  simp only
  split
  · exact (onBuf_agrees s i _).mono.andThen (request_agrees _ _)
  · exact (onBuf_agrees s i _).mono

theorem lookaheadCover_agrees : Agrees [.store, .play] s (lookaheadCover s) := by
  unfold lookaheadCover
  split
  · split
    · exact Agrees.ite (issueCover_agrees s _ _ _ _) (Agrees.refl _ s)
    · exact Agrees.refl _ s
  · exact Agrees.refl _ s

theorem freeSlots_agrees : Agrees [.play] s (freeSlots s) := State.onPlay_agrees s _

theorem issueFetch_agrees (demand : Bool) (i page : Nat) (r : Rec) :
    Agrees [.store, .play] s (issueFetch demand i page r s) := by
  unfold issueFetch
  simp only
  split
  · exact ((onBuf_agrees s i _).mono.andThen (State.onPlay_agrees _ _)).andThen (request_agrees _ _)
  · exact (onBuf_agrees s i _).mono.andThen (request_agrees _ _)

theorem serve_agrees (r : Rec) : Agrees [.store, .play] s (serve s r) := by
  unfold serve
  split
  · exact Agrees.refl _ s
  · split
    · exact (onBuf_agrees s _ _).mono
    · exact Agrees.refl _ s
    · exact Agrees.ite (issueFetch_agrees s _ _ _ _) (Agrees.ite (issueFetch_agrees s _ _ _ _) (Agrees.refl _ s))
    · exact Agrees.ite ((State.onStore_agrees s _).mono.andThen (issueFetch_agrees _ _ _ _ _)) (Agrees.refl _ s)
    · exact Agrees.refl _ s

theorem replan_agrees : Agrees [.store, .play] s (replan s) :=
  ((freeSlots_agrees s).mono.andThen (Agrees.foldl (fun s r => serve_agrees s r) _ _)).andThen
    (lookaheadCover_agrees _)

theorem fetchCompleted_agrees (isn : Isn) (edit : Byte) (data : Option Essence) :
    Agrees [.store, .play] s (fetchCompleted isn edit data s) := by
  unfold fetchCompleted
  split
  · exact Agrees.refl _ s
  · split
    · exact Agrees.ite ((onBuf_agrees s _ _).mono.andThen (replan_agrees _)) (Agrees.refl _ s)
    · exact Agrees.ite (Agrees.refl _ s) (Agrees.ite ((onBuf_agrees s _ _).mono.andThen (replan_agrees _))
        (((onBuf_agrees s _ _).mono.andThen (State.onPlay_agrees _ _)).andThen (replan_agrees _)))
    · exact Agrees.refl _ s

theorem coverCompleted_agrees (isn : Isn) (o : CoverOutcome) : Agrees [.play] s (coverCompleted isn o s) := by
  unfold coverCompleted
  split
  · exact Agrees.refl _ s
  · split <;> first | exact onBuf_agrees s _ _ | exact Agrees.refl _ s

theorem renderingChanged_agrees (i : Isn) : Agrees [.store, .play] s (renderingChanged s i) := by
  unfold renderingChanged
  split
  · split
    · exact (onBuf_agrees s _ _).mono
    · exact issueFetch_agrees s _ _ _ _
    · exact Agrees.refl _ s
  · exact Agrees.refl _ s

theorem takeChanges_agrees (c : Bool) (is : List Isn) : Agrees [.store, .play] s (takeChanges c is s) := by
  unfold takeChanges
  exact Agrees.ite ((Agrees.foldl renderingChanged_agrees is s).andThen (replan_agrees _)) (Agrees.refl _ s)

/-! ### Hold Line -/

theorem applyUpdate_agrees (u : Update) : Agrees [.line, .cuts, .play, .store] s (applyUpdate u s) :=
  ((State.onLine_agrees s _).mono.andThen (State.onCuts_agrees _ _)).andThen (takeChanges_agrees _ _ _)

theorem applyShed_agrees (i : ShedInstruction) :
    Agrees [.line, .pace, .play, .store, .ports, .counters] s (applyShed i s) := by
  unfold applyShed
  simp only
  split
  · exact ((State.onLine_agrees s _).mono.andThen (State.onPace_agrees _ _)).andThen (countSheds_agrees _ _)
  · exact ((((State.onLine_agrees s _).mono.andThen (State.onPace_agrees _ _)).andThen (countSheds_agrees _ _)).andThen
      (raise_agrees _ _)).andThen (takeChanges_agrees _ _ _)

theorem takeInstruction_agrees : Agrees [.line, .pace, .play, .store, .ports, .counters] s (takeInstruction s) := by
  unfold takeInstruction
  split
  · exact Agrees.refl _ s
  · exact (State.onPace_agrees s _).mono.andThen (applyShed_agrees _ _)

theorem answerSlice_agrees (p : Port) (r : Request) : Agrees [.ports] s (answerSlice p r s) := by
  unfold answerSlice
  split <;> exact answer_agrees s p _ _

theorem answerStatus_agrees (p : Port) (r : Request) : Agrees [.ports] s (answerStatus p r s) :=
  Agrees.ite (answer_agrees s p _ _) (answer_agrees s p _ _)

/-! ### Cut Engine -/

theorem putCut_agrees (c : Cut) : Agrees [.cuts] s (putCut c s) := State.onCuts_agrees s _
theorem removeCut_agrees (c : Cut) : Agrees [.cuts] s (removeCut c s) := State.onCuts_agrees s _

theorem doneCut_agrees (c : Cut) (e : List Field) : Agrees cutTouches s (doneCut c e s) :=
  (removeCut_agrees s c).mono.andThen (raise_agrees _ _)

theorem revokedCut_agrees (c : Cut) (n : Nat) : Agrees cutTouches s (revokedCut c n s) :=
  (removeCut_agrees s c).mono.andThen (raise_agrees _ _)

theorem settleCut_agrees (c : Cut) : Agrees cutTouches s (settleCut c s) := by
  unfold settleCut
  split
  · exact doneCut_agrees s c _
  · exact (putCut_agrees s _).mono.andThen (raise_agrees _ _)
  · exact Agrees.refl _ s

theorem enterState_agrees (c : Cut) (e : List Field) (v : Severity) : Agrees cutTouches s (enterState c e v s) := by
  unfold enterState
  split
  · exact doneCut_agrees s c _
  · exact (putCut_agrees s _).mono.andThen (raise_agrees _ _)
  · exact (putCut_agrees s _).mono.andThen (raise_agrees _ _)

theorem closeCut_agrees (isn : Isn) (tc : Option Timecode) (c : Cut) : Agrees cutTouches s (closeCut isn tc s c) := by
  unfold closeCut
  split
  · exact Agrees.refl _ s
  · exact (putCut_agrees s _).mono.andThen (raise_agrees _ _)

theorem closeCuts_agrees (isn : Isn) (tc : Option Timecode) : Agrees cutTouches s (closeCuts isn tc s) :=
  Agrees.foldl (fun s c => closeCut_agrees s isn tc c) _ s

theorem commitReport_agrees (b : Isn) : Agrees cutTouches s (commitReport b s) :=
  (State.onCuts_agrees s _).mono.andThen (Agrees.foldl (T := cutTouches) (fun s c => settleCut_agrees s c) _ _)

theorem revokeAll_agrees : Agrees cutTouches s (revokeAll s) :=
  (Agrees.foldl (T := cutTouches) (fun s c => revokedCut_agrees s c 0) _ s).andThen (State.onCuts_agrees _ _)

theorem putWatch_agrees (n : Nat) (w : Option Watch) : Agrees [.cuts] s (putWatch n w s) := State.onCuts_agrees s _

theorem takeWatch_agrees (p : Port) (r : Request) : Agrees cutTouches s (takeWatch p r s) := by
  unfold takeWatch
  split
  · exact (answer_agrees s p _ _).mono
  · exact Agrees.ite ((putWatch_agrees s _ _).mono.andThen (answer_agrees _ p _ _)) (answer_agrees s p _ _).mono

theorem takeWatchReport_agrees (p : Port) (r : Request) : Agrees [.ports] s (takeWatchReport p r s) := by
  unfold takeWatchReport
  split
  · exact answer_agrees s p _ _
  · split <;> exact answer_agrees s p _ _

theorem takeUnwatch_agrees (p : Port) (r : Request) : Agrees cutTouches s (takeUnwatch p r s) := by
  unfold takeUnwatch
  split
  · exact (answer_agrees s p _ _).mono
  · split
    · exact (answer_agrees s p _ _).mono
    · exact (putWatch_agrees s _ _).mono.andThen (answer_agrees _ p _ _)

theorem finish_agrees (j : CutJob) (w : ResultWord) (fs : List Field) :
    Agrees [.ports, .counters] s (finish j w fs s) := by
  cases j with
  | request p r => exact (answer_agrees s p w fs).mono
  | hit h => exact raise_agrees s _

theorem settleEntry_agrees (a : Awaiting) (ans : Answer) (c : Cut) : Agrees cutTouches s (settleEntry a ans c s) := by
  unfold settleEntry
  split
  · exact (removeCut_agrees s c).mono.andThen (finish_agrees _ _ _ _)
  · exact Agrees.ite
      (((putCut_agrees s _).mono.andThen (finish_agrees _ _ _ _)).andThen (revokedCut_agrees _ _ _))
      (((putCut_agrees s _).mono.andThen (finish_agrees _ _ _ _)).andThen (enterState_agrees _ _ _ _))

theorem settleAmend_agrees (a : Awaiting) (ans : Answer) (c : Cut) : Agrees cutTouches s (settleAmend a ans c s) := by
  unfold settleAmend
  simp only
  generalize hk : (if (a.tooLate ans && decide (a.count ≠ 0)) = true then
      finish a.job _ _ (putCut _ s) else raise _ (finish a.job _ _ (putCut _ s))) = k
  have h : Agrees cutTouches s k := by
    rw [← hk]
    exact Agrees.ite ((putCut_agrees s _).mono.andThen (finish_agrees _ _ _ _))
      (((putCut_agrees s _).mono.andThen (finish_agrees _ _ _ _)).andThen (raise_agrees _ _))
  exact Agrees.ite (h.andThen (revokedCut_agrees _ _ _)) (h.andThen (settleCut_agrees _ _))

theorem settleRevoke_agrees (a : Awaiting) (ans : Answer) (c : Cut) :
    Agrees cutTouches s (settleRevoke a ans c s) := by
  unfold settleRevoke
  simp only
  exact Agrees.ite
    (Agrees.ite ((finish_agrees s _ _ _).mono.andThen (revokedCut_agrees _ _ _))
      ((finish_agrees s _ _ _).mono.andThen (doneCut_agrees _ _ _)))
    ((finish_agrees s _ _ _).mono.andThen (revokedCut_agrees _ _ _))

theorem settleUnlisted_agrees (a : Awaiting) (ans : Answer) (range : Span) (old : Option Span) (gap : Nat) :
    Agrees cutTouches s (settleUnlisted a ans range old gap s) := by
  unfold settleUnlisted
  exact Agrees.ite ((State.onCuts_agrees s _).mono.andThen (finish_agrees _ _ _ _))
    ((finish_agrees s _ _ _).mono.andThen (raise_agrees _ _))

theorem settle_agrees (a : Awaiting) (ans : Answer) : Agrees cutTouches s (settle a ans s) := by
  unfold settle
  simp only
  have h := (State.onCuts_agrees s fun e => { e with awaiting := none, answer := none }).mono (T := cutTouches)
  split
  · split
    · exact h.andThen (settleEntry_agrees _ _ _ _)
    · exact h
  · split
    · exact h.andThen (settleAmend_agrees _ _ _ _)
    · exact h
  · split
    · exact h.andThen (settleRevoke_agrees _ _ _ _)
    · exact h
  · exact h.andThen (settleUnlisted_agrees _ _ _ _ _ _)

theorem sendUpdate_agrees (a : Awaiting) (f : Isn → DispFields × Option Nat) :
    Agrees cutTouches s (sendUpdate a f s) :=
  Agrees.ite (settle_agrees s a _) (State.onCuts_agrees s _).mono

theorem sendFor_agrees (j : CutJob) (w : AwaitKind) (c : Cut) : Agrees cutTouches s (sendFor j w c s) :=
  sendUpdate_agrees s _ _

theorem enterCut_agrees (j : CutJob) (a : CutAction) (cap : Bool) (first : Isn) (last : Option Isn)
    (t : Option Target) : Agrees cutTouches s (enterCut j a cap first last t s) :=
  (State.onCuts_agrees s _).mono.andThen (sendFor_agrees _ _ _ _)

theorem takeMarkIn_agrees (j : CutJob) (a : CutAction) (cap : Bool) : Agrees cutTouches s (takeMarkIn j a cap s) :=
  Agrees.ite (finish_agrees s _ _ _).mono (Agrees.ite (finish_agrees s _ _ _).mono (enterCut_agrees s _ _ _ _ _ _))

theorem takeUnlisted_agrees (j : CutJob) (first last : Isn) : Agrees cutTouches s (takeUnlisted j first last s) := by
  unfold takeUnlisted
  exact Agrees.ite (finish_agrees s _ _ _).mono
    ((State.onCuts_agrees s _).mono.andThen (sendUpdate_agrees _ _ _))

theorem takeDump_agrees (j : CutJob) : Agrees cutTouches s (takeDump j s) := by
  unfold takeDump
  exact Agrees.ite (finish_agrees s _ _ _).mono (Agrees.ite (takeUnlisted_agrees s _ _ _)
    (Agrees.ite (enterCut_agrees s _ _ _ _ _ _) (enterCut_agrees s _ _ _ _ _ _)))

theorem takeMarkOut_agrees (j : CutJob) (id : Option Nat) : Agrees cutTouches s (takeMarkOut j id s) := by
  unfold takeMarkOut
  split
  · exact (finish_agrees s _ _ _).mono
  · split
    · exact (finish_agrees s _ _ _).mono
    · simp only
      split
      · exact (putCut_agrees s _).mono.andThen (finish_agrees _ _ _ _)
      · exact ((putCut_agrees s _).mono.andThen (finish_agrees _ _ _ _)).andThen (enterState_agrees _ _ _ _)

theorem takeCut_agrees (j : CutJob) (r : Request) : Agrees cutTouches s (takeCut j r s) := by
  unfold takeCut
  simp only
  have hf : ∀ w fs, Agrees cutTouches s (finish j w fs s) := fun w fs => (finish_agrees s j w fs).mono
  repeat' split
  all_goals first | exact hf _ _ | exact enterCut_agrees s _ _ _ _ _ _

theorem takeAmend_agrees (j : CutJob) (r : Request) : Agrees cutTouches s (takeAmend j r s) := by
  unfold takeAmend
  simp only
  have hf : ∀ w fs, Agrees cutTouches s (finish j w fs s) := fun w fs => (finish_agrees s j w fs).mono
  repeat' split
  all_goals first | exact hf _ _ | exact (putCut_agrees s _).mono.andThen (sendFor_agrees _ _ _ _)

theorem takeRevoke_agrees (j : CutJob) (r : Request) : Agrees cutTouches s (takeRevoke j r s) := by
  unfold takeRevoke
  simp only
  have hf : ∀ w fs, Agrees cutTouches s (finish j w fs s) := fun w fs => (finish_agrees s j w fs).mono
  repeat' split
  all_goals first | exact hf _ _ | exact (putCut_agrees s _).mono.andThen (sendFor_agrees _ _ _ _)

theorem takeCuts_agrees (j : CutJob) (r : Request) : Agrees cutTouches s (takeCuts j r s) := by
  unfold takeCuts
  have hf : ∀ w fs, Agrees cutTouches s (finish j w fs s) := fun w fs => (finish_agrees s j w fs).mono
  repeat' split
  all_goals exact hf _ _

theorem takeMarkInRequest_agrees (j : CutJob) (r : Request) : Agrees cutTouches s (takeMarkInRequest j r s) := by
  unfold takeMarkInRequest
  split
  · exact (finish_agrees s _ _ _).mono
  · exact takeMarkIn_agrees s _ _ _

theorem takeMarkOutRequest_agrees (j : CutJob) (r : Request) : Agrees cutTouches s (takeMarkOutRequest j r s) := by
  unfold takeMarkOutRequest
  repeat' split
  all_goals first | exact (finish_agrees s _ _ _).mono | exact takeMarkOut_agrees s _ _

theorem takeJob_agrees (j : CutJob) : Agrees cutTouches s (takeJob j s) := by
  unfold takeJob
  repeat' split
  all_goals first
    | exact Agrees.refl _ s
    | exact takeMarkIn_agrees s _ _ _
    | exact takeMarkOut_agrees s _ _
    | exact takeDump_agrees s _
    | exact (finish_agrees s _ _ _).mono
    | exact takeMarkInRequest_agrees s _ _
    | exact takeMarkOutRequest_agrees s _ _
    | exact takeCut_agrees s _ _
    | exact takeAmend_agrees s _ _
    | exact takeRevoke_agrees s _ _
    | exact takeCuts_agrees s _ _
    | exact (takeWatchReport_agrees s _ _).mono
    | exact takeWatch_agrees s _ _
    | exact takeUnwatch_agrees s _ _

theorem cutArrives_agrees (j : CutJob) : Agrees cutTouches s (cutArrives j s) :=
  Agrees.ite (takeJob_agrees s j) (State.onCuts_agrees s _).mono

theorem takeQueued_agrees : ∀ (k : Nat) (s : State), Agrees cutTouches s (takeQueued k s)
  | 0, s => Agrees.refl _ s
  | k + 1, s => by
    unfold takeQueued
    split
    · exact ((State.onCuts_agrees s _).mono.andThen (takeJob_agrees _ _)).andThen (takeQueued_agrees k _)
    · exact Agrees.refl _ s

theorem dealHit_agrees (h : Hit) : Agrees cutTouches s (dealHit h s) := by
  unfold dealHit
  split
  · exact (raise_agrees s _).mono
  all_goals exact cutArrives_agrees s _

theorem testWatch_agrees (pt : WatchPoint) (isn : Isn) (tc : Option Timecode) (n : Nat) :
    Agrees cutTouches s (testWatch pt isn tc s n) := by
  unfold testWatch
  split
  · exact Agrees.refl _ s
  · refine Agrees.ite (Agrees.refl _ s) ?_
    simp only
    exact Agrees.ite ((putWatch_agrees s _ _).mono.andThen (dealHit_agrees _ _)) (putWatch_agrees s _ _).mono

theorem testWatches_agrees (pt : WatchPoint) (isn : Isn) (tc : Option Timecode) :
    Agrees cutTouches s (testWatches pt isn tc s) := Agrees.foldl (fun s n => testWatch_agrees s pt isn tc n) _ s

theorem recordBegins_agrees (isn : Isn) (tc : Option Timecode) : Agrees cutTouches s (recordBegins isn tc s) :=
  (State.onCuts_agrees s _).mono.andThen (testWatches_agrees _ _ _ _)

/-! ### Playout and pacing -/

theorem handOver_agrees (r : Rendered) : Agrees [.pack] s (handOver r s) := State.onPack_agrees s _

theorem whenBegun_agrees {T : List Block} {f : State → State} (h : ∀ s, Agrees T s (f s)) :
    Agrees T s (whenBegun f s) := Agrees.ite (h s) (Agrees.refl _ s)

theorem noteWork_agrees (w : PeriodWork) : Agrees [.line, .play, .ports, .counters] s (noteWork w s) := by
  unfold noteWork
  split
  · exact whenBegun_agrees s fun s =>
      ((countFreeze_agrees s).mono.andThen (countLateFetch_agrees _)).andThen (raiseGoverned_agrees _ _ _)
  · refine whenBegun_agrees s fun s => ?_
    simp only
    exact Agrees.ite (countFreeze_agrees s).mono
      (((countFreeze_agrees s).mono.andThen (State.onPlay_agrees _ _)).andThen (raise_agrees _ _))
  · exact (State.onPlay_agrees s _).mono
  · exact (State.onPlay_agrees s _).mono
  · exact Agrees.refl _ s

theorem commitCover_agrees (r : Rec) : Agrees [.store, .play] s (commitCover s r) := by
  unfold commitCover
  simp only
  have h := (State.onPlay_agrees s fun p => { p with run := CoverRun.next p.run r }).mono (T := [.store, .play])
  split
  · exact Agrees.ite h (h.andThen (issueCover_agrees _ _ _ _ _))
  · exact h

theorem demandFault_agrees (w : PeriodWork) : Agrees [.line] s (demandFault w s) := by
  unfold demandFault
  split
  · exact Agrees.ite (State.onLine_agrees s _) (Agrees.refl _ s)
  all_goals exact Agrees.refl _ s

theorem reportCommit_agrees (b : Isn) : Agrees cutTouches s (reportCommit b s) :=
  Agrees.ite (Agrees.refl _ s) (commitReport_agrees s _)

theorem sendReport_agrees (k : PeriodKind) (w : PeriodWork) :
    Agrees [.line, .play, .store, .cuts, .ports, .counters] s (sendReport k w s) :=
  ((((State.onLine_agrees s _).mono.andThen (State.onPlay_agrees _ _)).andThen (demandFault_agrees _ _)).andThen
    (Agrees.foldl commitCover_agrees _ _)).andThen (reportCommit_agrees _ _)

theorem noteFallback_agrees (w : PeriodWork) : Agrees [.play, .ports, .counters] s (noteFallback w s) := by
  unfold noteFallback
  repeat' split
  all_goals first
    | exact Agrees.refl _ s
    | exact (State.onPlay_agrees s _).mono.andThen (raise_agrees _ _)

theorem emitSlice_agrees (k : PeriodKind) (w : PeriodWork) (a n x : Option Rec) :
    Agrees [.play, .pack, .ports, .counters] s (emitSlice k w a n x s) := by
  unfold emitSlice
  simp only
  refine Agrees.andThen (l := [.pack]) (Agrees.andThen (l := [.play]) ?_ (State.onPlay_agrees _ _))
    (handOver_agrees _ _)
  have h := (noteFallback_agrees s w).mono (T := [.play, .pack, .ports, .counters])
  exact Agrees.ite (h.andThen (countCaptionsCut_agrees _)) h

theorem beginsNow_agrees (w : PeriodWork) : Agrees cutTouches s (beginsNow w s) := by
  unfold beginsNow
  split
  · exact recordBegins_agrees s _ _
  · exact Agrees.refl _ s

theorem endEmission_agrees : Agrees [.play] s (endEmission s) := State.onPlay_agrees s _

theorem playPeriod_agrees (k : PeriodKind) :
    Agrees [.line, .cuts, .play, .pack, .store, .ports, .counters] s (playPeriod k s) :=
  (((((endEmission_agrees s).mono.andThen (noteWork_agrees _ _)).andThen (sendReport_agrees _ _ _)).andThen
    (emitSlice_agrees _ _ _ _ _ _)).andThen (beginsNow_agrees _ _)).andThen (replan_agrees _)

theorem transit_agrees : Agrees [.pace, .ports, .counters] s (transit s) := by
  unfold transit
  exact Agrees.ite (State.onPace_agrees s _).mono ((State.onPace_agrees s _).mono.andThen (raise_agrees _ _))

theorem accumulate_agrees : Agrees [.pace] s (accumulate s) := State.onPace_agrees s _
theorem paySlip_agrees : Agrees [.pace] s (paySlip s) := State.onPace_agrees s _

theorem giveKind_agrees (k : PeriodKind) : Agrees pulseTouches s (giveKind k s) :=
  (State.onPace_agrees s _).mono.andThen (playPeriod_agrees _ k)

theorem forcedNotice_agrees (k : String) (i : Isn) (q : Bool) :
    Agrees [.ports, .counters] s (forcedNotice k i q s) := Agrees.ite (Agrees.refl _ s) (raise_agrees s _)

theorem rebuildPeriod_agrees : Agrees pulseTouches s (rebuildPeriod s) := by
  unfold rebuildPeriod
  split
  · exact Agrees.ite
      ((((paySlip_agrees s).mono.andThen (countRepeat_agrees _)).andThen (forcedNotice_agrees _ _ _ _)).andThen
        (giveKind_agrees _ _)) (giveKind_agrees s _)
  · exact giveKind_agrees s _

theorem trimPeriod_agrees : Agrees pulseTouches s (trimPeriod s) := by
  unfold trimPeriod
  split
  · exact Agrees.ite
      ((((paySlip_agrees s).mono.andThen (countSkip_agrees _)).andThen (forcedNotice_agrees _ _ _ _)).andThen
        (giveKind_agrees _ _)) (giveKind_agrees s _)
  · exact giveKind_agrees s _

theorem plainPeriod_agrees : Agrees pulseTouches s (plainPeriod s) := by
  unfold plainPeriod
  split
  · exact rebuildPeriod_agrees s
  · exact trimPeriod_agrees s
  all_goals exact giveKind_agrees s _

theorem sendPeriodShed_agrees (x : ShedReason) (is : List Isn) : Agrees [.pace] s (sendPeriodShed x is s) :=
  State.onPace_agrees s _

theorem engagedPeriod_agrees : Agrees pulseTouches s (engagedPeriod s) := by
  unfold engagedPeriod
  simp only
  have h := ((transit_agrees s).mono (T := pulseTouches)).andThen (accumulate_agrees _)
  split
  · split
    · exact h.andThen (sendPeriodShed_agrees _ _ _)
    · exact h.andThen (giveKind_agrees _ _)
  · exact h.andThen (plainPeriod_agrees _)

theorem bypassPeriod_agrees : Agrees pulseTouches s (bypassPeriod s) :=
  Agrees.ite (giveKind_agrees s _) (sendPeriodShed_agrees s _ _).mono

theorem pacePeriod_agrees : Agrees pulseTouches s (pacePeriod s) := by
  unfold pacePeriod
  split
  · exact engagedPeriod_agrees s
  · exact bypassPeriod_agrees s

theorem setTarget_agrees (t : Nat) : Agrees [.force, .settings] s (setTarget t s) :=
  (State.onForce_agrees s _).mono.andThen (State.onSettings_agrees _ _)

theorem sendRequestShed_agrees (x : ShedReason) (is : List Isn) (w : PaceWait) :
    Agrees [.pace] s (sendRequestShed x is w s) := State.onPace_agrees s _

theorem answerJump_agrees (p : Port) (t a : Nat) (c : Bool) (k : Nat) : Agrees [.ports] s (answerJump p t a c k s) :=
  answer_agrees s p _ _

theorem takeJump_agrees (p : Port) (t : Nat) (c : Bool) : Agrees [.pace, .ports] s (takeJump p t c s) := by
  unfold takeJump
  exact Agrees.ite (answerJump_agrees s _ _ _ _ _).mono
    (Agrees.ite (answerJump_agrees s _ _ _ _ _).mono (sendRequestShed_agrees s _ _ _).mono)

theorem takeTarget_agrees (p : Port) (r : Request) : Agrees [.pace, .force, .settings, .ports] s (takeTarget p r s) := by
  unfold takeTarget
  split
  · exact Agrees.ite (answer_agrees s _ _ _).mono
      (Agrees.ite ((setTarget_agrees s _).mono.andThen (answer_agrees _ _ _ _))
        (Agrees.ite ((setTarget_agrees s _).mono.andThen (takeJump_agrees _ _ _ _)) (answer_agrees s _ _ _).mono))
  · exact (answer_agrees s _ _ _).mono

theorem takeEngage_agrees (p : Port) (r : Request) : Agrees [.pace, .ports, .counters] s (takeEngage p r s) := by
  unfold takeEngage
  refine Agrees.ite (answer_agrees s _ _ _).mono ?_
  split
  · exact (answer_agrees s _ _ _).mono
  · exact ((State.onPace_agrees s _).mono.andThen (answer_agrees _ _ _ _)).andThen (raise_agrees _ _)

theorem takeBypass_agrees (p : Port) (r : Request) : Agrees [.pace, .cuts, .ports, .counters] s (takeBypass p r s) := by
  unfold takeBypass
  refine Agrees.ite (answer_agrees s _ _ _).mono ?_
  split
  · exact (answer_agrees s _ _ _).mono
  · simp only
    have h := (((State.onPace_agrees s fun x => { x with mode := .bypass, st := .idle, slip := 0 }).mono
      (T := [.pace, .cuts, .ports, .counters])).andThen
        (raise_agrees _ (paceNotice (s.onPace fun x => { x with mode := .bypass, st := .idle, slip := 0 })))).andThen
        (revokeAll_agrees _)
    exact Agrees.ite (h.andThen (answer_agrees _ _ _ _)) (h.andThen (sendRequestShed_agrees _ _ _ _))

/-- What the requests of the Pacing Controller may touch. -/
def paceTouches : List Block := [.pace, .force, .settings, .cuts, .ports, .counters]

theorem takePace_agrees (j : PaceJob) : Agrees paceTouches s (takePace j s) := by
  unfold takePace
  split
  · exact (takeTarget_agrees s _ _).mono
  · exact (takeEngage_agrees s _ _).mono
  · exact (takeBypass_agrees s _ _).mono
  · exact Agrees.refl _ s

theorem takePaceQueue_agrees : ∀ (k : Nat) (s : State), Agrees paceTouches s (takePaceQueue k s)
  | 0, s => Agrees.refl _ s
  | k + 1, s => by
    unfold takePaceQueue
    split
    · exact ((State.onPace_agrees s _).mono.andThen (takePace_agrees _ _)).andThen (takePaceQueue_agrees k _)
    · exact Agrees.refl _ s

theorem periodAnswered_agrees (k : Nat) : Agrees pulseTouches s (periodAnswered k s) := by
  unfold periodAnswered
  split
  · exact Agrees.refl _ s
  · exact giveKind_agrees s _

theorem requestAnswered_agrees (k : Nat) : Agrees [.pace, .ports] s (requestAnswered k s) := by
  unfold requestAnswered
  split
  · exact Agrees.refl _ s
  · exact (State.onPace_agrees s _).mono.andThen (answerJump_agrees _ _ _ _ _ _)
  · exact (State.onPace_agrees s _).mono.andThen (answer_agrees _ _ _ _)

theorem takeShedCount_agrees : Agrees pulseTouches s (takeShedCount s) := by
  unfold takeShedCount
  split
  · exact Agrees.refl _ s
  · rename_i a rest _
    simp only
    have h := (State.onPace_agrees s fun p => { p with answers := rest }).mono (T := pulseTouches)
    refine Agrees.andThen (l := paceTouches) ?_ (takePaceQueue_agrees _ _)
    exact Agrees.ite (h.andThen (periodAnswered_agrees _ _)) (h.andThen (requestAnswered_agrees _ _))

theorem finishPeriod_agrees : ∀ (k : Nat) (s : State), Agrees pulseTouches s (finishPeriod k s)
  | 0, s => Agrees.refl _ s
  | k + 1, s => by
    unfold finishPeriod
    refine Agrees.ite (Agrees.refl _ s) ?_
    refine Agrees.andThen (l := pulseTouches) ?_ (finishPeriod_agrees k _)
    exact Agrees.ite (takeInstruction_agrees s).mono (takeShedCount_agrees s)

theorem flushPeriod_agrees : Agrees pulseTouches s (flushPeriod s) := finishPeriod_agrees _ s

theorem valuesInForce_agrees : Agrees [.force] s (valuesInForce s) := State.onForce_agrees s _

theorem referencePulse_agrees : Agrees pulseTouches s (referencePulse s) :=
  ((((flushPeriod_agrees s).andThen (State.onPack_agrees _ _)).andThen (State.onPorts_agrees _ _)).andThen
    (valuesInForce_agrees _)).andThen (pacePeriod_agrees _)

/-! ### Windows and ingest -/

theorem putWindow_agrees (n : Nat) (w : WindowEntry) : Agrees [.store] s (putWindow n w s) := State.onStore_agrees s _

theorem clearReads_agrees (n : Nat) : Agrees [.store, .play] s (clearReads n s) :=
  (State.onStore_agrees s _).mono.andThen
    (Agrees.foldl (T := [.store, .play]) (fun s i => (coverCompleted_agrees s i .cleared).mono) _ _)

theorem defineWindow_agrees (n : Nat) (d : WindowDef) : Agrees [.store, .play] s (defineWindow n d s) := by
  unfold defineWindow
  simp only
  split
  · exact (putWindow_agrees s _ _).mono
  · exact Agrees.ite (putWindow_agrees s _ _).mono ((putWindow_agrees s _ _).mono.andThen (clearReads_agrees _ _))

theorem loadEnded_agrees (n c : Nat) (f : Bool) : Agrees [.store, .ports, .counters] s (loadEnded n c f s) :=
  Agrees.ite ((putWindow_agrees s _ _).mono.andThen (raise_agrees _ _))
    ((putWindow_agrees s _ _).mono.andThen (raise_agrees _ _))

theorem laneEnds_agrees : Agrees [.lane, .store, .ports, .counters] s (laneEnds s) :=
  Agrees.ite ((State.onLane_agrees s _).mono.andThen (loadEnded_agrees _ _ _ _)) (Agrees.refl _ s)

theorem countFate_agrees (f : PacketFate) : Agrees [.counters] s (countFate f s) := by
  cases f <;> first | exact Agrees.refl _ s | exact State.onCounters_agrees s _

theorem placeProgram_agrees (p : Packet) : Agrees [.ingest, .counters] s (placeProgram p s) := by
  unfold placeProgram
  split
  · exact Agrees.refl _ s
  · exact (State.onIngest_agrees s _).mono.andThen (countFate_agrees _ _)

theorem resync_agrees (old ts : U32) : Agrees [.ingest, .ports, .counters] s (resync old ts s) :=
  (State.onIngest_agrees s _).mono.andThen (raise_agrees _ _)

theorem earlyProgram_agrees (old : U32) (p : Packet) : Agrees [.ingest, .ports, .counters] s (earlyProgram old p s) := by
  unfold earlyProgram
  simp only
  have h := (countEarly_agrees s).mono (T := [.ingest, .ports, .counters])
  exact Agrees.ite (h.andThen (State.onIngest_agrees _ _))
    (Agrees.ite (h.andThen (resync_agrees _ _ _)) (h.andThen (State.onIngest_agrees _ _)))

theorem takeProgram_agrees (p : Packet) : Agrees [.ingest, .ports, .counters] s (takeProgram p s) := by
  unfold takeProgram
  split
  · exact (State.onIngest_agrees s _).mono.andThen (placeProgram_agrees _ _)
  · split
    · exact (placeProgram_agrees s p).mono
    · exact (placeProgram_agrees s p).mono
    · exact (State.onIngest_agrees s _).mono.andThen (countMalformed_agrees _)
    · exact (State.onIngest_agrees s _).mono.andThen (countLate_agrees _)
    · exact earlyProgram_agrees s _ _

theorem placeLane_agrees (p : Packet) : Agrees [.lane, .counters] s (placeLane p s) := by
  unfold placeLane
  split
  · exact (countEarly_agrees s).mono
  · exact (State.onLane_agrees s _).mono.andThen (countFate_agrees _ _)

theorem takeLanePacket_agrees (p : Packet) : Agrees [.lane, .counters] s (takeLanePacket p s) := by
  unfold takeLanePacket
  refine Agrees.ite (State.onLane_agrees s _).mono (Agrees.ite (Agrees.refl _ s) ?_)
  split
  · exact placeLane_agrees s p
  · exact placeLane_agrees s p
  · exact (countMalformed_agrees s).mono
  · exact (countLate_agrees s).mono
  · exact (countEarly_agrees s).mono

theorem sortPacket_agrees (p : Packet) : Agrees [.ingest, .lane, .ports, .counters] s (sortPacket p s) :=
  Agrees.ite (takeProgram_agrees s p).mono
    (Agrees.ite (takeLanePacket_agrees s p).mono (countMalformed_agrees s).mono)

theorem createRecord_agrees (c : Closed) (page : Option Nat) :
    Agrees [.line, .cuts, .ports, .counters] s (createRecord c page s) :=
  ((State.onCuts_agrees s _).mono.andThen (State.onLine_agrees _ _)).andThen (closeCuts_agrees _ _ _)

theorem settleSlot_agrees (c : Closed) (page : Option Nat) : Agrees [.ingest, .store] s (settleSlot c page s) := by
  unfold settleSlot
  split
  · exact (State.onIngest_agrees s _).mono.andThen (request_agrees _ _)
  · exact (State.onIngest_agrees s _).mono

theorem countClosure_agrees (c : Closed) : Agrees [.counters] s (countClosure c s) := by
  have h : ∀ s, Agrees [.counters] s (countClosure.countCaptions c s) := fun s =>
    Agrees.ite (countCaptionsCut_agrees s) (Agrees.refl _ s)
  unfold countClosure
  split
  · exact h s
  · exact h s
  · exact (countPartial_agrees s).andThen (h _)
  · exact countLoss_agrees s

theorem raiseOpt_agrees (n : Option Notice) : Agrees [.ports, .counters] s (raiseOpt n s) := by
  cases n with
  | none => exact Agrees.refl _ s
  | some n => exact raise_agrees s n

theorem closeProgram_agrees :
    Agrees [.ingest, .line, .cuts, .store, .ports, .counters] s (closeProgram s) := by
  unfold closeProgram
  simp only
  exact ((((((State.onIngest_agrees s _).mono.andThen (settleSlot_agrees _ _ _)).andThen
    (createRecord_agrees _ _ _)).andThen (countClosure_agrees _ _)).andThen (State.onIngest_agrees _ _)).andThen
    (raiseOpt_agrees _ _)).andThen (testWatches_agrees _ _ _ _)

theorem sendClip_agrees (c : Closed) (w b : Nat) : Agrees [.store] s (sendClip c w b s) := by
  unfold sendClip
  split
  · exact request_agrees s _
  · exact Agrees.refl _ s

theorem closeLanePosition_agrees (pos : Position) (rest : List Position) :
    Agrees [.lane, .store, .ports, .counters] s (closeLanePosition pos rest s) :=
  ((State.onLane_agrees s _).mono.andThen (sendClip_agrees _ _ _ _)).andThen (laneEnds_agrees _)

theorem closeLane_agrees : Agrees [.lane, .store, .ports, .counters] s (closeLane s) := by
  unfold closeLane
  refine Agrees.ite (Agrees.refl _ s) (Agrees.ite (State.onLane_agrees s _).mono ?_)
  split
  · exact Agrees.refl _ s
  · exact closeLanePosition_agrees s _ _

/-! ### Ends of store accesses -/

theorem noteEnd_agrees (job : StoreJob) (e : AccessEnd) : Agrees [.line, .ports, .counters] s (noteEnd job e s) := by
  unfold noteEnd
  repeat' split
  all_goals first | exact Agrees.refl _ s | exact raiseGoverned_agrees s _ _

theorem countEnd_agrees (e : AccessEnd) : Agrees [.counters] s (countEnd e s) := by
  cases e <;> exact State.onCounters_agrees s _

theorem ingestEnded_agrees (page slot : Nat) (d : Bool) :
    Agrees [.ingest, .line, .store, .play] s (ingestEnded page slot d s) :=
  ((State.onIngest_agrees s _).mono.andThen (State.onLine_agrees _ _)).andThen (replan_agrees _)

theorem loadWriteEnded_agrees (slot : Nat) (d : Bool) :
    Agrees [.lane, .store, .ports, .counters] s (loadWriteEnded slot d s) :=
  (State.onLane_agrees s _).mono.andThen (laneEnds_agrees _)

theorem handOn_agrees (a : Access) (e : AccessEnd) : Agrees accessTouches s (handOn a e s) := by
  unfold handOn
  split
  · exact (fetchCompleted_agrees s _ _ _).mono
  · exact (ingestEnded_agrees s _ _ _).mono
  · exact (coverCompleted_agrees s _ _).mono
  · exact (loadWriteEnded_agrees s _ _).mono

theorem landWrite_agrees (job : StoreJob) (e : AccessEnd) : Agrees [.store, .draws] s (landWrite job e s) := by
  unfold landWrite
  split
  · exact (State.onStore_agrees s _).mono
  · exact Agrees.refl _ _
  · exact (State.onStore_agrees s _).mono.andThen (State.drawn_agrees _)
  · exact (State.onStore_agrees s _).mono.andThen (State.drawn_agrees _)

theorem endRequest_agrees (a : Access) (e : AccessEnd) : Agrees accessTouches s (endRequest a e s) :=
  ((((((State.onStore_agrees s _).mono.andThen (landWrite_agrees _ _ _)).andThen (countEnd_agrees _ _)).andThen
    (noteEnd_agrees _ _ _)).andThen (grantNext_agrees _))).andThen (handOn_agrees _ _ _)

theorem putBack_agrees (a : Access) : Agrees [.store, .counters] s (putBack a s) :=
  ((State.onStore_agrees s _).mono.andThen (countRetry_agrees _)).andThen (grantNext_agrees _)

theorem accessReported_agrees (a : Access) (r : StoreReport) : Agrees accessTouches s (accessReported a r s) := by
  unfold accessReported
  split
  · exact endRequest_agrees s _ _
  · exact endRequest_agrees s _ _
  · exact Agrees.ite (putBack_agrees s a).mono (endRequest_agrees s _ _)

theorem outstandingLands_agrees (a : Access) (r : StoreReport) :
    Agrees [.store, .draws] s (outstandingLands a r s) := by
  unfold outstandingLands
  split
  · exact landWrite_agrees s _ _
  · exact landWrite_agrees s _ _
  · exact Agrees.refl _ s

theorem outstandingEnds_agrees : Agrees [.store] s (outstandingEnds s) :=
  (State.onStore_agrees s _).andThen (grantNext_agrees _)

/-! ### Settings and reset -/

theorem redefine_agrees (t : List (Nat × WindowDef)) (n : Nat) : Agrees [.store, .play] s (redefine t s n) :=
  (putWindow_agrees s _ _).mono.andThen (clearReads_agrees _ _)

theorem loadProfile_agrees (body : List ProfileRecord) :
    Agrees [.settings, .ports, .store, .play] s (loadProfile body s) := by
  unfold loadProfile
  simp only
  exact ((State.onSettings_agrees s _).mono.andThen (State.onPorts_agrees _ _)).andThen
    (Agrees.foldl (T := [.store, .play]) (fun s n => redefine_agrees s _ n) _ _)

theorem beginSave_agrees (n g : Nat) : Agrees [.settings] s (beginSave n g s) := State.onSettings_agrees s _

theorem saveDone_agrees (x : Save) : Agrees [.settings, .ports, .counters] s (saveDone x s) :=
  (State.onSettings_agrees s _).mono.andThen (raise_agrees _ _)

theorem saveFailed_agrees (x : Save) (r : String) : Agrees [.settings, .ports, .counters] s (saveFailed x r s) :=
  (State.onSettings_agrees s _).mono.andThen (raise_agrees _ _)

theorem resetEnds_agrees : Agrees [.timer, .ports, .counters] s (resetEnds s) := by
  unfold resetEnds
  simp only
  have h := ((State.onTimer_agrees s fun _ => .init s.force.rate s.now).mono
    (T := [.timer, .ports, .counters])).andThen (raise_agrees _ (startNotice s.settings))
  exact Agrees.ite (h.andThen (raise_agrees _ _)) h

end Sys2Proof.Machine
end

