-- ==== Sys2Proof/Laws/Memory.lean ====
section
/-! SUPPORT. The stacked DRAM: every operation keeps the canonical form, and a read after a write. -/

namespace Sys2Proof.Machine

/-! ### Cells in order -/

theorem Memory.risingFrom_cons (lo : Nat) (c : Host.Cell) (cs : Memory) :
    Memory.risingFrom lo (c :: cs) = true ↔
      lo ≤ c.1 ∧ c.2 ≠ Memory.unlisted ∧ Memory.risingFrom (c.1 + 1) cs = true := by
  simp [Memory.risingFrom, Bool.and_eq_true, and_assoc]

theorem Memory.risingFrom_mono {lo lo' : Nat} (h : lo' ≤ lo) : ∀ {m : Memory},
    Memory.risingFrom lo m = true → Memory.risingFrom lo' m = true
  | [], _ => rfl
  | c :: cs, hm => by
    rw [Memory.risingFrom_cons] at hm ⊢
    exact ⟨Nat.le_trans h hm.1, hm.2⟩

theorem Memory.risingFrom_mem {lo : Nat} : ∀ {m : Memory}, Memory.risingFrom lo m = true → ∀ c ∈ m, lo ≤ c.1
  | [], _, _, h => by cases h
  | d :: ds, hm, c, h => by
    rw [Memory.risingFrom_cons] at hm
    cases h with
    | head => exact hm.1
    | tail _ h => have := Memory.risingFrom_mem hm.2.2 c h; omega

theorem Memory.risingFrom_filter {lo : Nat} (p : Host.Cell → Bool) : ∀ {m : Memory},
    Memory.risingFrom lo m = true → Memory.risingFrom lo (m.filter p) = true
  | [], _ => rfl
  | c :: cs, hm => by
    rw [Memory.risingFrom_cons] at hm
    have ih := Memory.risingFrom_filter p hm.2.2
    by_cases hp : p c = true
    · rw [List.filter_cons_of_pos hp, Memory.risingFrom_cons]; exact ⟨hm.1, hm.2.1, ih⟩
    · rw [List.filter_cons_of_neg hp]; exact Memory.risingFrom_mono (by omega) ih

/-- Two runs of cells, the second from where the first has ended. -/
theorem Memory.risingFrom_append {lo mid : Nat} (hle : lo ≤ mid) : ∀ {m n : Memory},
    Memory.risingFrom lo m = true → (∀ c ∈ m, c.1 < mid) → Memory.risingFrom mid n = true →
      Memory.risingFrom lo (m ++ n) = true
  | [], _, _, _, hn => Memory.risingFrom_mono hle hn
  | c :: cs, n, hm, hb, hn => by
    rw [Memory.risingFrom_cons] at hm
    rw [List.cons_append, Memory.risingFrom_cons]
    have hc := hb c (by simp)
    exact ⟨hm.1, hm.2.1, Memory.risingFrom_append (by omega) hm.2.2 (fun d hd => hb d (by simp [hd])) hn⟩

theorem cellsFrom_rising : ∀ (bs : Bytes) (a : Nat), Memory.risingFrom a (cellsFrom a bs) = true
  | [], _ => rfl
  | b :: bs, a => by
    unfold cellsFrom
    split
    · exact Memory.risingFrom_mono (by omega) (cellsFrom_rising bs (a + 1))
    · rw [Memory.risingFrom_cons]; exact ⟨Nat.le_refl _, ‹_›, cellsFrom_rising bs (a + 1)⟩

theorem cellsFrom_lt : ∀ (bs : Bytes) (a : Nat), ∀ c ∈ cellsFrom a bs, c.1 < a + bs.length
  | [], _, _, h => by simp [cellsFrom] at h
  | b :: bs, a, c, h => by
    unfold cellsFrom at h
    have ih := cellsFrom_lt bs (a + 1) c
    split at h
    · have := ih h; simp; omega
    · cases h with
      | head => simp
      | tail _ h => have := ih h; simp; omega

/-! ### Every operation keeps the form -/

/-- A write keeps the canonical form. -/
theorem Memory.write_wf {m : Memory} (hm : m.wf = true) (a : Nat) (bs : Bytes) : (m.write a bs).wf = true := by
  unfold Memory.wf at *
  simp only [Memory.write]
  have hlow : Memory.risingFrom 0 (m.filter fun c => c.1 < a) = true := Memory.risingFrom_filter _ hm
  have hhigh : Memory.risingFrom (a + bs.length) (m.filter fun c => a + bs.length ≤ c.1) = true := by
    have : ∀ {lo : Nat} {m : Memory} {k : Nat}, Memory.risingFrom lo m = true →
        (∀ c ∈ m, k ≤ c.1) → Memory.risingFrom k m = true := by
      intro lo m k h hk
      cases m with
      | nil => rfl
      | cons c cs =>
        rw [Memory.risingFrom_cons] at h ⊢
        exact ⟨hk c (by simp), h.2⟩
    refine this (Memory.risingFrom_filter _ hm) ?_
    intro c hc
    simpa using (List.mem_filter.mp hc).2
  rw [List.append_assoc]
  refine Memory.risingFrom_append (Nat.zero_le a) hlow ?_ ?_
  · intro c hc; simpa using (List.mem_filter.mp hc).2
  · exact Memory.risingFrom_append (by omega) (cellsFrom_rising bs a) (cellsFrom_lt bs a) hhigh

/-- Writing an essence keeps the canonical form. -/
theorem writeEssence_wf {m : Memory} (hm : m.wf = true) (base : Nat) (e : Essence) :
    (writeEssence m base e).wf = true :=
  Memory.write_wf (Memory.write_wf (Memory.write_wf hm _ _) _ _) _ _

/-- An access that ends DONE keeps the canonical form. -/
theorem StoreJob.write_wf (job : StoreJob) {m : Memory} (hm : m.wf = true) : (job.write m).wf = true := by
  cases job with
  | fetch => exact hm
  | coverRead => exact hm
  | ingestWrite => exact writeEssence_wf hm _ _
  | loadWrite => exact Memory.write_wf (writeEssence_wf hm _ _) _ _

/-- An access that does not end DONE keeps the canonical form. -/
theorem StoreJob.spoil_wf (job : StoreJob) (draw : Nat) {m : Memory} (hm : m.wf = true) :
    (job.spoil draw m).wf = true := by
  cases job with
  | fetch => exact hm
  | coverRead => exact hm
  | ingestWrite => exact writeEssence_wf hm _ _
  | loadWrite => exact Memory.write_wf (writeEssence_wf hm _ _) _ _

/-- A fourth RETRY leaves everything as it was: the access was not carried out (R155). -/
@[simp] theorem landWrite_retryExhausted (job : StoreJob) (s : State) :
    landWrite job (.fault .retryExhausted) s = s := rfl

/-- What an access leaves in the memory is in the canonical form. -/
theorem landWrite_wf (job : StoreJob) (e : AccessEnd) {s : State} (h : MemoryOk s) : MemoryOk (landWrite job e s) := by
  unfold landWrite MemoryOk at *
  split
  · exact StoreJob.write_wf job h
  · exact h
  · exact StoreJob.spoil_wf job _ h
  · exact StoreJob.spoil_wf job _ h

/-- The memory of the reset state is in the canonical form. -/
theorem reset_memory_wf : MemoryOk State.reset := rfl

/-! ### Reading -/

theorem lookup_append_none {α β : Type} [BEq α] (a : α) : ∀ (l m : List (α × β)),
    l.lookup a = none → (l ++ m).lookup a = m.lookup a
  | [], _, _ => rfl
  | (k, v) :: l, m, h => by
    rw [List.cons_append, List.lookup_cons] at *
    cases hk : a == k with
    | true => rw [hk] at h; simp at h
    | false => rw [hk] at h; simpa using lookup_append_none a l m (by simpa using h)

theorem lookup_append_some {α β : Type} [BEq α] (a : α) (v : β) : ∀ (l m : List (α × β)),
    l.lookup a = some v → (l ++ m).lookup a = some v
  | [], _, h => by simp at h
  | (k, w) :: l, m, h => by
    rw [List.cons_append, List.lookup_cons] at *
    cases hk : a == k with
    | true => rw [hk] at h; simpa using h
    | false => rw [hk] at h; simpa using lookup_append_some a v l m (by simpa using h)

theorem Memory.lookup_none {m : Memory} {a : Nat} (h : ∀ c ∈ m, c.1 ≠ a) : m.lookup a = none := by
  induction m with
  | nil => rfl
  | cons c cs ih =>
    rw [List.lookup_cons]
    have : (a == c.1) = false := by simpa using fun e => h c (by simp) e.symm
    rw [this]; exact ih fun d hd => h d (by simp [hd])

theorem Memory.lookup_filter {m : Memory} {a : Nat} {p : Host.Cell → Bool} (hp : ∀ b, p (a, b) = true) :
    (m.filter p).lookup a = m.lookup a := by
  induction m with
  | nil => rfl
  | cons c cs ih =>
    obtain ⟨k, v⟩ := c
    by_cases hk : a = k
    · subst hk
      rw [List.filter_cons_of_pos (hp v), List.lookup_cons, List.lookup_cons]; simp
    · have hb : (a == k) = false := by simpa using hk
      by_cases hpc : p (k, v) = true
      · rw [List.filter_cons_of_pos hpc, List.lookup_cons, List.lookup_cons, hb]; exact ih
      · rw [List.filter_cons_of_neg hpc, List.lookup_cons, hb]; exact ih

theorem cellsFrom_lookup_before : ∀ (bs : Bytes) (a k : Nat), k < a → (cellsFrom a bs).lookup k = none := by
  intro bs a k h
  refine Memory.lookup_none fun c hc => ?_
  have := Memory.risingFrom_mem (cellsFrom_rising bs a) c hc
  omega

/-- A read of the byte that a run of cells holds. -/
theorem cellsFrom_read : ∀ (bs : Bytes) (a i : Nat), i < bs.length →
    Memory.read (cellsFrom a bs) (a + i) = bs[i]?.getD Memory.unlisted
  | [], _, _, h => by simp at h
  | b :: bs, a, 0, _ => by
    unfold cellsFrom Memory.read
    split
    · rw [Nat.add_zero, cellsFrom_lookup_before bs (a + 1) a (by omega)]; simpa using ‹b = _›.symm
    · simp
  | b :: bs, a, i + 1, h => by
    have ih := cellsFrom_read bs (a + 1) i (by simpa using h)
    have e : a + 1 + i = a + (i + 1) := by omega
    rw [e] at ih
    unfold cellsFrom
    split
    · simpa using ih
    · unfold Memory.read at *
      have hne : (a + (i + 1) == a) = false := by
        simp
      rw [List.lookup_cons, hne]; simpa using ih

/-- A byte outside the run written reads as before. -/
theorem Memory.read_write_outside (m : Memory) (a k : Nat) (bs : Bytes) (h : k < a ∨ a + bs.length ≤ k) :
    (m.write a bs).read k = m.read k := by
  unfold Memory.read
  congr 1
  simp only [Memory.write]
  have hcells : (cellsFrom a bs).lookup k = none := by
    refine Memory.lookup_none fun c hc => ?_
    have h1 := Memory.risingFrom_mem (cellsFrom_rising bs a) c hc
    have h2 := cellsFrom_lt bs a c hc
    omega
  rcases h with h | h
  · have hhigh : (m.filter fun c => a + bs.length ≤ c.1).lookup k = none :=
      Memory.lookup_none fun c hc => by
        have := (List.mem_filter.mp hc).2
        simp at this; omega
    cases hl : (m.filter fun c => c.1 < a).lookup k with
    | some v =>
      rw [List.append_assoc, lookup_append_some _ v _ _ hl, ← hl]
      exact Memory.lookup_filter (fun b => by simpa using h)
    | none =>
      rw [List.append_assoc, lookup_append_none _ _ _ hl, lookup_append_none _ _ _ hcells, hhigh, ← hl]
      exact Memory.lookup_filter (fun b => by simpa using h)
  · have hlow : (m.filter fun c => c.1 < a).lookup k = none :=
      Memory.lookup_none fun c hc => by
        have := (List.mem_filter.mp hc).2
        simp at this; omega
    rw [List.append_assoc, lookup_append_none _ _ _ hlow, lookup_append_none _ _ _ hcells]
    exact Memory.lookup_filter (fun b => by simpa using h)

/-- A byte of the run written reads as written. -/
theorem Memory.read_write_inside (m : Memory) (a i : Nat) (bs : Bytes) (h : i < bs.length) :
    (m.write a bs).read (a + i) = bs[i]?.getD Memory.unlisted := by
  rw [← cellsFrom_read bs a i h]
  unfold Memory.read
  simp only [Memory.write]
  have hlow : (m.filter fun c => c.1 < a).lookup (a + i) = none :=
    Memory.lookup_none fun c hc => by
      have := (List.mem_filter.mp hc).2
      simp at this; omega
  have hhigh : (m.filter fun c => a + bs.length ≤ c.1).lookup (a + i) = none :=
    Memory.lookup_none fun c hc => by
      have := (List.mem_filter.mp hc).2
      simp at this; omega
  rw [List.append_assoc, lookup_append_none _ _ _ hlow]
  congr 1
  cases hl : (cellsFrom a bs).lookup (a + i) with
  | some v => rw [lookup_append_some _ v _ _ hl]
  | none => rw [lookup_append_none _ _ _ hl, hhigh]

/-! ### Runs -/

theorem fillFrom_length : ∀ (n a : Nat) (m : Memory), (fillFrom a n m).length = n
  | 0, _, _ => by simp [fillFrom]
  | n + 1, a, [] => by simp [fillFrom, fillFrom_length n (a + 1) []]
  | n + 1, a, c :: cs => by
    unfold fillFrom
    split <;> simp [fillFrom_length n]

/-- A run read has the length asked. -/
@[simp] theorem Memory.readRun_length (m : Memory) (a n : Nat) : (m.readRun a n).length = n := fillFrom_length n a _

theorem fillFrom_get : ∀ (n a i : Nat) (m : Memory), Memory.risingFrom a m = true → i < n →
    (fillFrom a n m)[i]? = some (Memory.read m (a + i))
  | 0, _, _, _, _, h => by omega
  | n + 1, a, i, [], hm, h => by
    unfold fillFrom
    cases i with
    | zero => simp [Memory.read]
    | succ i =>
      have := fillFrom_get n (a + 1) i [] rfl (by omega)
      simpa [Memory.read] using this
  | n + 1, a, i, c :: cs, hm, h => by
    obtain ⟨k, v⟩ := c
    rw [Memory.risingFrom_cons] at hm
    unfold fillFrom
    by_cases hk : k = a
    · subst hk
      simp only [if_true]
      cases i with
      | zero => simp [Memory.read]
      | succ i =>
        rw [List.getElem?_cons_succ, fillFrom_get n (k + 1) i cs hm.2.2 (by omega)]
        have hb : (k + (i + 1) == k) = false := by simp
        have e : k + 1 + i = k + (i + 1) := by omega
        rw [e]
        simp [Memory.read, List.lookup_cons, hb]
    · rw [if_neg (show ¬ (k, v).1 = a from hk)]
      have h1 : a + 1 ≤ k := by have := hm.1; omega
      cases i with
      | zero =>
        have : List.lookup a ((k, v) :: cs) = none := by
          refine Memory.lookup_none (m := (k, v) :: cs) fun d hd => ?_
          cases hd with
          | head => exact hk
          | tail _ hd =>
            have := Memory.risingFrom_mem hm.2.2 d hd
            have h3 : (k, v).1 = k := rfl
            omega
        simp [Memory.read, this]
      | succ i =>
        have hm' : Memory.risingFrom (a + 1) ((k, v) :: cs) = true := by
          rw [Memory.risingFrom_cons]; exact ⟨h1, hm.2⟩
        rw [List.getElem?_cons_succ, fillFrom_get n (a + 1) i ((k, v) :: cs) hm' (by omega)]
        have e : a + 1 + i = a + (i + 1) := by omega
        rw [e]

/-- A run read gives, byte by byte, what a read of the byte gives. -/
theorem Memory.readRun_get {m : Memory} (hm : m.wf = true) (a n i : Nat) (h : i < n) :
    (m.readRun a n)[i]? = some (m.read (a + i)) := by
  unfold Memory.readRun
  have key : Memory.risingFrom a (m.filter fun c => a ≤ c.1) = true := by
    have h1 := Memory.risingFrom_filter (fun c => decide (a ≤ c.1)) hm
    cases hf : m.filter fun c => a ≤ c.1 with
    | nil => rfl
    | cons c cs =>
      rw [hf] at h1
      rw [Memory.risingFrom_cons] at h1 ⊢
      refine ⟨?_, h1.2⟩
      have hc : c ∈ m.filter fun c => decide (a ≤ c.1) := by rw [hf]; simp
      simpa using (List.mem_filter.mp hc).2
  rw [fillFrom_get n a i _ key h]
  congr 1
  unfold Memory.read
  congr 1
  exact Memory.lookup_filter (fun b => by simp)

/-- A run just written is read back as written. -/
theorem Memory.readRun_write {m : Memory} (hm : m.wf = true) (a : Nat) (bs : Bytes) :
    (m.write a bs).readRun a bs.length = bs := by
  apply List.ext_getElem?
  intro i
  by_cases h : i < bs.length
  · rw [Memory.readRun_get (Memory.write_wf hm a bs) a _ i h, Memory.read_write_inside m a i bs h]
    simp [h]
  · rw [List.getElem?_eq_none (by simp; omega), List.getElem?_eq_none (by omega)]

end Sys2Proof.Machine
end

