-- ==== Sys2Proof/Laws/Output.lean ====
section
/-! SUPPORT. The send queue, the ones' complement checksums, and one slot of a list: what a handover, a written profile
slot and a change of one slot do. -/

namespace Sys2Proof.Machine

/-! ### The send queue (R136, R146) -/

namespace Packetizer
variable (p : Packetizer)

/-- A packet taken from the front leaves the queue as long, or shorter by the front slice. -/
theorem send_queue_length : p.send.queue.length ≤ p.queue.length := by
  unfold Packetizer.send
  split
  · exact Nat.le_refl _
  · next o rest h => split <;> (try split) <;> simp [h]

@[simp] theorem send_handed : p.send.handed = p.handed := by
  unfold Packetizer.send
  split
  · rfl
  · split <;> rfl

@[simp] theorem send_out : p.send.out = p.out := by
  unfold Packetizer.send
  split
  · rfl
  · split <;> rfl

@[simp] theorem sendTimes_handed (k : Nat) : (sendTimes k p).handed = p.handed := by
  induction k generalizing p with
  | zero => rfl
  | succ k ih => rw [sendTimes, ih, send_handed]

@[simp] theorem sendTimes_out (k : Nat) : (sendTimes k p).out = p.out := by
  induction k generalizing p with
  | zero => rfl
  | succ k ih => rw [sendTimes, ih, send_out]

@[simp] theorem makeRoom_handed : p.makeRoom.handed = p.handed := by
  unfold Packetizer.makeRoom
  split <;> simp

@[simp] theorem makeRoom_out : p.makeRoom.out = p.out := by
  unfold Packetizer.makeRoom
  split <;> simp

/-- A queue with room stays as it is; of a full one the last slice stays. -/
theorem makeRoom_queue : p.makeRoom.queue = if p.queue.length < 2 then p.queue else p.queue.drop (p.queue.length - 1) := by
  unfold Packetizer.makeRoom
  split <;> rfl

theorem makeRoom_queue_length : p.makeRoom.queue.length ≤ 1 := by
  rw [makeRoom_queue]
  split
  · omega
  · rw [List.length_drop]; omega

variable (length stream payload : Nat) (r : Rendered)

/-- What a handover does to the counts and the queue: the slice joins the back under the handover count, which rises. -/
theorem take_spec :
    (p.take length stream payload r).handed = p.handed + 1
      ∧ (p.take length stream payload r).out = p.out
      ∧ (p.take length stream payload r).queue =
          p.makeRoom.queue ++ [⟨p.handed, p.handed * BitVec.ofNat 32 length, stream, payload, 0, r⟩] := by
  simp [Packetizer.take]

theorem take_queue_length : (p.take length stream payload r).queue.length ≤ 2 := by
  rw [(take_spec p length stream payload r).2.2, List.length_append, List.length_singleton]
  have := makeRoom_queue_length p
  omega

end Packetizer

/-! ### The ones' complement sum (R17) -/

/-- One addition stays a 16-bit word. -/
theorem addCarry_lt {a w : Nat} (ha : a < 65536) (hw : w < 65536) : addCarry a w < 65536 := by
  unfold addCarry
  split <;> omega

/-- A word and its complement sum to 0xFFFF. -/
theorem addCarry_complement {a : Nat} (ha : a < 65536) : addCarry a (65535 - a) = 65535 := by
  unfold addCarry
  split <;> omega

/-- The sum of words stays a word. -/
theorem foldl_addCarry_lt {ws : List Nat} (h : ∀ w ∈ ws, w < 65536) {a : Nat} (ha : a < 65536) :
    ws.foldl addCarry a < 65536 := by
  induction ws generalizing a with
  | nil => exact ha
  | cons w ws ih =>
    exact ih (fun x hx => h x (List.mem_cons_of_mem _ hx)) (addCarry_lt ha (h w List.mem_cons_self))

theorem onesSum_lt {ws : List Nat} (h : ∀ w ∈ ws, w < 65536) : onesSum ws < 65536 := foldl_addCarry_lt h (by omega)

/-- Words with their own complement behind them sum to 0xFFFF. -/
theorem onesSum_complement {ws : List Nat} (h : ∀ w ∈ ws, w < 65536) : onesSum (ws ++ [65535 - onesSum ws]) = 65535 := by
  have := addCarry_complement (onesSum_lt h)
  simpa [onesSum] using this

/-! ### The checksum of a profile slot (R199) -/

theorem bodyWords_lt (body : List ProfileRecord) : ∀ w ∈ bodyWords body, w < 65536 := by
  intro w hw
  obtain ⟨n, -, rfl⟩ := List.mem_map.mp hw
  exact Nat.mod_lt _ (by omega)

/-- The checksum that a SAVE writes verifies. -/
theorem written_verifies (n gen : Nat) (body : List ProfileRecord) (i : Bool) :
    (⟨n, gen, bodyChecksum body, i, body⟩ : ProfileSlot).verifies = true := by
  have h := onesSum_lt (bodyWords_lt body)
  have h' : (bodyChecksum body).toNat = 65535 - onesSum (bodyWords body) := by
    rw [bodyChecksum, BitVec.toNat_ofNat]
    exact Nat.mod_eq_of_lt (by omega)
  simp only [ProfileSlot.verifies, h', onesSum_complement (bodyWords_lt body), decide_true]

/-! ### One slot of a list -/

variable {α : Type} (f : α → α)

@[simp] theorem listModify_length (i : Nat) (xs : List α) : (listModify f i xs).length = xs.length := by
  induction xs generalizing i with
  | nil => cases i <;> rfl
  | cons x xs ih => cases i <;> simp [listModify, ih]

/-- Only the element at the index changes. -/
theorem listModify_getElem? (i j : Nat) (xs : List α) :
    (listModify f i xs)[j]? = if i = j then xs[j]?.map f else xs[j]? := by
  induction xs generalizing i j with
  | nil => cases i <;> simp [listModify]
  | cons x xs ih => cases i <;> cases j <;> simp [listModify, ih]

@[simp] theorem onBuf_slots_length (i : Nat) (g : BufSlot → BufSlot) (s : State) :
    (onBuf i g s).play.slots.length = s.play.slots.length := by
  simp [onBuf, State.onPlay]

/-- What a change of one buffer slot leaves of the others. -/
theorem onBuf_slots_getElem? (i j : Nat) (g : BufSlot → BufSlot) (s : State) :
    (onBuf i g s).play.slots[j]? = if i = j then (s.play.slots[j]?).map g else s.play.slots[j]? := by
  simp [onBuf, State.onPlay, listModify_getElem?]

end Sys2Proof.Machine
end

