-- ==== Sys2Proof/Laws/Ports.lean ====
section
/-! SUPPORT. The Control Ports: what an answer does to its port, and what it leaves to the other ports. -/

namespace Sys2Proof.Machine

/-! ### The transmitter -/

/-- A reply that joins a port's replies goes behind all that the port is to send. -/
theorem PortState.pump_outgoing (x : PortState) (r : Reply) :
    (PortState.pump { x with replies := x.replies ++ [r] }).outgoing = x.outgoing ++ [r.line] := by
  obtain ⟨line, queue, current, sending, replies, notices, drops⟩ := x
  cases sending with
  | some l => simp [PortState.pump, PortState.outgoing]
  | none => cases replies <;> simp [PortState.pump, PortState.outgoing, Reply.line]

theorem PortState.pump_current (x : PortState) : x.pump.current = x.current := by
  unfold PortState.pump
  split
  · rfl
  · split
    · rfl
    · split <;> rfl

theorem PortState.pump_queue (x : PortState) : x.pump.queue = x.queue := by
  unfold PortState.pump
  split
  · rfl
  · split
    · rfl
    · split <;> rfl

theorem PortState.pump_line (x : PortState) : x.pump.line = x.line := by
  unfold PortState.pump
  split
  · rfl
  · split
    · rfl
    · split <;> rfl

/-! ### One port -/

variable (s : State) (p : Port)

@[simp] theorem State.onPort_get (f : PortState → PortState) : (s.onPort p f).ports.get p = f (s.ports.get p) := by
  simp [State.onPort]

theorem State.onPort_others (f : PortState → PortState) : OtherPortsKept p s (s.onPort p f) := by
  intro q hq
  cases p <;> cases q <;> first | rfl | exact absurd rfl hq

theorem OtherPortsKept.refl : OtherPortsKept p s s := fun _ _ => rfl

theorem OtherPortsKept.trans {p : Port} {s t u : State} (h : OtherPortsKept p s t) (g : OtherPortsKept p t u) :
    OtherPortsKept p s u := fun q hq => (g q hq).trans (h q hq)

theorem queueReply_outgoing (r : Reply) :
    ((queueReply p r s).ports.get p).outgoing = (s.ports.get p).outgoing ++ [r.line] := by
  unfold queueReply
  rw [State.onPort_get]
  exact PortState.pump_outgoing _ r

theorem queueReply_others (r : Reply) : OtherPortsKept p s (queueReply p r s) := State.onPort_others s p _

theorem Ports.bindStation_get (ps : Ports) (q : Port) (n : Nat) (a : Option Nat) :
    (ps.bindStation p n a).get q = ps.get q := by
  cases q <;> rfl

theorem bind_get (q : Port) (n : Nat) (a : Option Nat) :
    (s.onPorts fun ps => ps.bindStation p n a).ports.get q = s.ports.get q := Ports.bindStation_get p s.ports q n a

theorem bind_others (n : Nat) (a : Option Nat) : OtherPortsKept p s (s.onPorts fun ps => ps.bindStation p n a) :=
  fun q _ => bind_get s p q n a

/-- Taking a line may add a reply, behind all that waits. -/
theorem takeLine_outgoing (l : QueuedLine) :
    ∃ later, ((takeLine p l s).ports.get p).outgoing = (s.ports.get p).outgoing ++ later := by
  unfold takeLine route
  split
  · exact ⟨_, queueReply_outgoing s p _⟩
  · simp only
    have hr : ∀ r : Request, ∃ later,
        ((((s.onPorts fun ps => ps.bindStation p r.station l.address).onPort p
          fun x => { x with current := some ⟨r, false⟩ }).ports.get p).outgoing = (s.ports.get p).outgoing ++ later) := by
      intro r
      refine ⟨[], ?_⟩
      rw [State.onPort_get, bind_get, List.append_nil]; rfl
    split
    · exact hr _
    · split
      · exact ⟨_, queueReply_outgoing s p _⟩
      · split
        · exact hr _
        · exact Exists.intro _ ((queueReply_outgoing _ p _).trans (congrArg (·.outgoing ++ _) (bind_get s p p _ _)))

theorem takeLine_others (l : QueuedLine) : OtherPortsKept p s (takeLine p l s) := by
  unfold takeLine route
  split
  · exact queueReply_others s p _
  · simp only
    split
    · exact (bind_others s p _ _).trans (State.onPort_others _ p _)
    · split
      · exact queueReply_others s p _
      · split
        · exact (bind_others s p _ _).trans (State.onPort_others _ p _)
        · exact (bind_others s p _ _).trans (queueReply_others _ p _)

theorem takeLines_outgoing : ∀ (k : Nat) (s : State),
    ∃ later, ((takeLines k p s).ports.get p).outgoing = (s.ports.get p).outgoing ++ later
  | 0, s => ⟨[], (List.append_nil _).symm⟩
  | k + 1, s => by
    unfold takeLines
    split
    · rename_i l ls _ _
      obtain ⟨a, ha⟩ := takeLine_outgoing (s.onPort p fun x => { x with queue := ls }) p l
      obtain ⟨b, hb⟩ := takeLines_outgoing k (takeLine p l (s.onPort p fun x => { x with queue := ls }))
      refine ⟨a ++ b, ?_⟩
      rw [hb, ha, State.onPort_get, List.append_assoc]; rfl
    · exact ⟨[], (List.append_nil _).symm⟩

theorem takeLines_others : ∀ (k : Nat) (s : State), OtherPortsKept p s (takeLines k p s)
  | 0, s => OtherPortsKept.refl s p
  | k + 1, s => by
    unfold takeLines
    split
    · exact ((State.onPort_others s p _).trans (takeLine_others _ p _)).trans (takeLines_others k _)
    · exact OtherPortsKept.refl s p

/-- A port with an empty request queue takes no line. -/
theorem takeLines_empty (k : Nat) (h : (s.ports.get p).queue = []) : takeLines k p s = s := by
  cases k with
  | zero => rfl
  | succ k => unfold takeLines; rw [h]; split <;> simp_all

/-! ### An answer -/

/-- An answer's reply joins what the port is to send, right behind what waited. -/
theorem answerWith_replied (e : ReplyEffect) (w : ResultWord) (fs : List Field) (c : AtOwner)
    (h : (s.ports.get p).current = some c) : RepliedWith e p c.req w fs s (answerWith e p w fs s) := by
  unfold answerWith
  rw [h]
  simp only
  obtain ⟨later, hl⟩ := takeLines_outgoing p Config.requestQueue
    (queueReply p ⟨w, some c.req.tag, fs, e, false, c.req.address⟩
      (s.onPort p fun x => { x with current := none }))
  refine ⟨later, ?_⟩
  rw [hl, queueReply_outgoing, State.onPort_get, List.append_assoc]; rfl

theorem answer_replied (w : ResultWord) (fs : List Field) (c : AtOwner)
    (h : (s.ports.get p).current = some c) : Replied p c.req w fs s (answer p w fs s) :=
  answerWith_replied s p .nothing w fs c h

theorem answerWith_others (e : ReplyEffect) (w : ResultWord) (fs : List Field) :
    OtherPortsKept p s (answerWith e p w fs s) := by
  unfold answerWith
  split
  · exact OtherPortsKept.refl s p
  · exact ((State.onPort_others s p _).trans (queueReply_others _ p _)).trans (takeLines_others p _ _)

/-- With no line waiting, the port has no request at an owner once it is answered. -/
theorem answerWith_current (e : ReplyEffect) (w : ResultWord) (fs : List Field)
    (hq : (s.ports.get p).queue = []) : ((answerWith e p w fs s).ports.get p).current = none := by
  unfold answerWith
  split
  · assumption
  · rw [takeLines_empty]
    · unfold queueReply
      rw [State.onPort_get, PortState.pump_current, State.onPort_get]
    · unfold queueReply
      rw [State.onPort_get, PortState.pump_queue, State.onPort_get]; exact hq

/-! ### Taking a routed request -/

/-- The owner has been reached: the port's request stands as taken. -/
def reached (r : Request) : State := s.onPort p fun x => { x with current := some ⟨r, true⟩ }

@[simp] theorem reached_current (r : Request) : ((reached s p r).ports.get p).current = some ⟨r, true⟩ := by
  unfold reached; rw [State.onPort_get]

@[simp] theorem reached_outgoing (r : Request) :
    ((reached s p r).ports.get p).outgoing = (s.ports.get p).outgoing := by
  unfold reached; rw [State.onPort_get]; rfl

theorem reached_others (r : Request) : OtherPortsKept p s (reached s p r) := State.onPort_others s p _

theorem reached_agrees (r : Request) : Agrees [.ports] s (reached s p r) := State.onPort_agrees s p _

/-- A routed request of the form is taken, once it stands as taken. -/
theorem takeRouted_of {form : Request → Bool} {take : Request → State → State} {r : Request} (h : Routed s p r)
    (hf : form r = true) : takeRouted p form take s = take r (reached s p r) := by
  unfold takeRouted State.runs reached
  rw [h.1, h.2]
  simp [hf]

end Sys2Proof.Machine
end

