-- ==== Sys2Proof/WellFormed.lean ====
section
/-! DEFINITION. Which commands are well formed: what the outside of the part can send at all. The check stands
outside the machine: `exec` gives a meaning to ill-formed commands too. -/

namespace Sys2Proof

/-- A page or block of 2 MiB is 32,768 units of 64 bytes (R148, R149), so no access corrects more. -/
def unitsPerAccess : Nat := 32768

/-- The store's report names no more corrected units than one access reads (R148, R149). -/
def StoreReport.wellFormed : StoreReport → Bool
  | .done units => units ≤ unitsPerAccess
  | .retry _ => true
  | .fault => true

/-- An access is granted under a number from 1 on (R158, R161), and the store reports on a granted access;
a packet on Media In has at least one byte. The other commands have no ill-formed operand. -/
def Instr.wellFormed : Instr → Bool
  | .mediaInPacket packet => packet != []
  | .storeCompletion grant report => 1 ≤ grant && report.wellFormed
  | .powerOn | .resetLineAsserted | .resetLineReleased | .linePulse | .lossWatchExpiry | .freeRunExpiry
  | .closingMark | .packetSent | .serialCharacter _ _ | .datagram _ _ | .replySent _ | .accessTimeout
  | .dispositionUpdate | .updateAnswer | .shedInstruction | .shedAnswer | .saveComplete _ | .saveTimeout
  | .dump _ | .markIn _ | .markOut _ | .cut _ | .amend _ | .revoke _ | .cuts _ | .watch _ | .watchReport _
  | .unwatch _ | .targetGlide _ | .targetJump _ | .engage _ | .bypass _ | .slice _ | .status _ | .window _
  | .windowReport _ | .load _ | .clear _ | .counters _ | .countersClear _ | .portReset _ | .param _ | .set _
  | .setStation _ | .save _ | .profile _ | .restart _ | .powerLoss => true

end Sys2Proof
end

