-- ==== Sys2Proof/Tests/Slice0.lean ====
section
/-! SUPPORT. The model's own tests: the well-formedness checks, figures that the manual works out, one or two steps of
each command, and for each statement with hypotheses a state that meets them. -/

namespace Sys2Proof.Tests
open Sys2Proof.Machine
set_option Elab.async false

/-! ## Small states -/

/-- The state after a command. -/
def after (c : Instr) (s : State) : State :=
  match exec c s with
  | .next t => t
  | .fault _ | .refused _ => s

/-- A request of station 1 under tag 7. -/
def req (w : ReqWord) (keys : List (String × String)) : Request := ⟨1, 7, w, keys, none⟩

/-- A port has routed a request to its owner. -/
def routed (p : Port) (r : Request) (s : State) : State := s.onPort p fun x => { x with current := some ⟨r, false⟩ }

/-- Port A has routed the request that a line holds. -/
def asked (line : String) (s : State) : State :=
  s.onPort .a fun x =>
    { x with
      current := (QueuedLine.request ⟨line.toList.map fun c => BitVec.ofNat 8 c.toNat, false, false, none⟩).map
        fun r => ⟨r, false⟩ }

/-- The line a port is sending. -/
def told (p : Port) (s : State) : Option String := (s.ports.get p).sending.map (·.text)

/-- What Port A sends when a request of a line has been taken by its owner. -/
def reply (line : String) (c : Instr) (s : State) : Option String := told .a (after c (asked line s))

/-- The station table holds station 1 fixed on Port A, with everything. -/
def onA : State := State.reset.onPorts fun ps => { ps with table := [{ Station.builtIn with port := .only .a }] }

/-- Port A is sending a line. -/
def busy (s : State) : State := s.onPort .a fun x => { x with sending := some ⟨"OK TAG=1", [], .nothing⟩ }

/-- A kept record whose page has been written. -/
def kept (i : Nat) : Rec where
  isn := BitVec.ofNat 32 i
  ts := some 0
  tc := some ⟨10, 0, 0, i⟩
  page := some i
  videoBytes := 4
  audio := false
  captBytes := 0
  cond := .partialSlice
  loss := none
  quiet := true
  fields := ⟨.keep, true⟩
  cut := none
  life := .held
  committed := false
  ended := false
  skipped := false
  edit := 0
  noticed := false

/-- Three kept records, 0 to 2, in ENGAGED mode. -/
def line3 : State :=
  ((onA.onLine fun l => { l with records := [kept 0, kept 1, kept 2], nextIsn := 3, freePool := l.freePool.drop 3 }).onCuts
    fun e => { e with head := 2 }).onPace fun p => { p with mode := .engaged, st := .steady }

/-- The last record is committed, and the boundary stands before it at 2. -/
def committed2 : State :=
  (line3.onLine fun l =>
    { l with
      records := [{ kept 0 with committed := true, life := .committed }, { kept 1 with committed := true, life := .committed },
        kept 2]
      commitPoint := some 1 }).onCuts fun e => { e with boundary := 2 }

/-- A closed cut of the list, of station 1. -/
def cut14 : Cut :=
  ⟨14, 1, 3, .mute 3, false, 1440, some 1446, none, .armed, 0, 42, some .entry⟩

/-- An open-ended cut that awaits nothing. -/
def open12 : Cut := ⟨12, 3, 5, .cover .tone false, true, 1441, none, none, .opened, 0, 40, none⟩

/-- The Cut Engine of the manual's example of section 4.11, with the cuts given. -/
def marking (cuts : List Cut) : State :=
  (onA.onCuts fun e => { e with cuts := cuts, nextId := 15, seq := 43, head := 1451, boundary := 1443 }).onPace
    fun p => { p with mode := .engaged, st := .steady }

/-- The Hold Line has answered the update of cut 14. -/
def answered (ans : Answer) (openEnded : Bool) (c : Cut) : State :=
  routedReached .a (req .cut []) ((marking [c]).onCuts fun e =>
    { e with awaiting := some ⟨.request .a (req .cut []), .entry 14, 1440, 7, openEnded, false⟩, answer := some ans })
where
  routedReached (p : Port) (r : Request) (s : State) : State :=
    s.onPort p fun x => { x with current := some ⟨r, true⟩ }

/-- A queued request of the store. -/
def wants (job : StoreJob) (retries : Nat := 0) : StoreReq := ⟨job, 1, retries, 0, false⟩

/-- An access in flight under grant 1. -/
def inFlight (job : StoreJob) (retries : Nat) (s : State) : State :=
  s.onStore fun st => { st with flight := some ⟨wants job retries, 1, 0, none⟩, grants := 1, arrivals := 1 }

/-- A small slice: two bytes of video, no audio, one byte of captions. -/
def small : Essence := ⟨[1, 2], none, [3]⟩

/-- A demand fetch of record 0 for slot 0. -/
def demand0 : StoreJob := .fetch true 0 0 0 0 4 false 0

/-- A rendered slice of the manual's example of section 1.7. -/
def slice742 : Rendered := ⟨742, some ⟨10, 15, 42, 7⟩, [], [], [], false, false, false, false⟩

/-- The rendered slice of the manual's example of section 7.5, without its video and audio. -/
def slice89750 : Rendered := ⟨89750, some ⟨14, 2, 31, 18⟩, [], [], List.replicate 37 0, false, false, false, false⟩

/-- A video packet of four bytes at a slice timestamp. -/
def videoPacket (ts : U32) : Bytes :=
  outputHeader ⟨0, ts, 0, 8192, 0, slice742⟩ .video 0 0 4 4 ++ [9, 9, 9, 9]

/-- The program path expects a timestamp, with two open positions. -/
def expecting (e : U32) (early : Nat) : State :=
  State.reset.onIngest fun x =>
    { x with expected := some e, early := early, window := [⟨e, false, none, false⟩, ⟨e + 1920, false, none, false⟩] }

/-- A window defined at a base over a length. -/
def windowAt (n base length : Nat) (st : WindowState) (s : State) : State :=
  putWindow n ⟨some ⟨base, length, false⟩, 0, st⟩ s

/-- A mark is pending. -/
def marked (s : State) : State := s.onTimer fun t => { t with begun := true, locked := true, markPending := true }

/-! ## Well-formedness -/

theorem test_wf_refuses_empty_packet : Instr.wellFormed (.mediaInPacket []) = false := by decide
theorem test_wf_refuses_grant_zero : Instr.wellFormed (.storeCompletion 0 .fault) = false := by decide
theorem test_wf_refuses_too_many_units : Instr.wellFormed (.storeCompletion 1 (.done 32769)) = false := by decide
theorem test_wf_admits_a_whole_page : Instr.wellFormed (.storeCompletion 1 (.done 32768)) = true := by decide
theorem test_no_word_spells_a_command : decodeTableWord 16 0x1234 = none := rfl

/-! ## Figures the manual works out -/

-- section 1.7, worked example: 0x4B8E
theorem test_checksum_of_audio_header :
    (outputHeader ⟨1000, 1920000, 0, 8192, 0, slice742⟩ .audio 14911 8192 8192 122880).drop 28 = [0x4B, 0x8E] := by
  decide +kernel
-- section 1.7, worked example: word 7 read as 0x0000 makes the sum 0xDFFF
theorem test_checksum_of_lost_bit :
    onesSum [0xD516, 0x0200, 0x3A3F, 0x2000, 0x001D, 0x4C00, 0, 0, 0x0001, 0xE000, 0, 0x02E6, 0x0A0F, 0x2A07, 0x4B8E]
      = 0xDFFF := by decide +kernel
-- section 7.5, worked example: flags 0xC0 and checksum 0xD8C8
theorem test_checksum_of_caption_header :
    let h := outputHeader ⟨90000, 172800000, 0, 8192, 0, slice89750⟩ .caption 30 0 37 37
    (h.drop 2).take 2 = [0x03, 0xC0] ∧ (h.drop 28) = [0xD8, 0xC8] := by decide +kernel
-- section 7.5: 51, 15 and 1 packets
theorem test_packets_of_a_slice :
    packetsOf 412700 8192 = 51 ∧ packetsOf 122880 8192 = 15 ∧ packetsOf 37 8192 = 1 := by decide
-- section 7.5: 0xB0, 0x70 and 0xB4
theorem test_flags_of_repeat_and_freeze :
    flagsByte true false { slice742 with repeatFlag := true, seam := true } = 0xB0
      ∧ flagsByte false true { slice742 with repeatFlag := true, seam := true } = 0x70
      ∧ flagsByte true false { slice742 with repeatFlag := true, seam := true, concealed := true } = 0xB4 := by decide
-- section 6.4, worked example of the repeat seam
theorem test_fade_of_repeat_seam :
    [fade 64 1000 (-200) 0, fade 64 996 (-190) 1, fade 64 1000 (-200) 16, fade 64 880 (-120) 32, fade 64 640 40 48,
      fade 64 410 150 63, fade 64 (-1000) (-1001) 16] = [1000, 977, 700, 380, 190, 154, -1000] := by decide +kernel
-- R125: the halves at k = 4 and 28 round away from zero
theorem test_tone_rounds_away_from_zero : toneAt 838861 4 = 419431 ∧ toneAt 838861 28 = -419431 := by decide +kernel
-- R195: the ranges of the payload size and of the crossfade length
theorem test_admitted_values :
    ParamKey.payload.accept 100 = none ∧ ParamKey.payload.accept 64 = some 1024 ∧ ParamKey.payload.accept 8256 = some 8192
      ∧ ParamKey.fade.accept 48 = none ∧ ParamKey.rate.accept 25 = some 25 ∧ ParamKey.openLimit.accept 1 = some 25 := by
  decide
-- R182: a request whose only fault is a bad ST= is answered with its own TAG
theorem test_bad_line_keeps_its_tag :
    let l : QueuedLine := ⟨"DUMP ST=0 TAG=55".toList.map fun c => BitVec.ofNat 8 c.toNat, false, false, none⟩
    l.request = none ∧ l.tag = some 55 := by decide +kernel

/-! ## The Period Timer and the resets -/

-- R203, R7, R10: the loss watch runs 60 ms, 180 ticks
theorem test_powerOn : (after .powerOn State.reset).timer.watchDue = 180 := by decide +kernel
-- R204
theorem test_resetLineAsserted : (after .resetLineAsserted line3).line.records = [] := by decide +kernel
-- R205
theorem test_resetLineReleased :
    told .a (after .resetLineReleased (after .resetLineAsserted onA)) =
      some "!START CAUSE=RESTART BY=LINE SEV=CONCEALED" := by decide +kernel
-- R8, R9, R10: at 25 slices per second the mark is due after 20 ms and the watch after 60 ms
theorem test_linePulse :
    let t := after .linePulse State.reset
    t.timer.markDue = 60 ∧ t.timer.watchDue = 180 ∧ t.pack.out = 1 := by decide +kernel
-- section 1.5, worked example: the watch set at 80 ms expires at 140 ms, with O 504, the mark at 160 and the free run at 180
theorem test_lossWatchExpiry :
    let s := (onA.onTimer fun t => { t with locked := true, begun := true, pulses := 503, watchDue := 420 }).onPack
      fun p => { p with out := 503 }
    let t := after .lossWatchExpiry s
    told .a t = some "!REFERENCE_LOST O=504 SEV=ATTENTION"
      ∧ t.now = 420 ∧ t.timer.markDue = 480 ∧ t.timer.freeDue = 540 ∧ t.pack.out = 504 := by decide +kernel
-- section 1.5, worked example: the expiry at 180 ms
theorem test_freeRunExpiry :
    let t := after .freeRunExpiry (onA.onTimer fun t => { t with begun := true, freeRuns := true, freeDue := 540 })
    t.now = 540 ∧ t.timer.markDue = 600 ∧ t.timer.freeDue = 660 := by decide +kernel
-- R201
theorem test_powerLoss : (after .powerLoss State.reset).phase = .off := by decide +kernel

/-! ## Ingest -/

-- R31, R33, R34: a slice of which nothing arrived
theorem test_closingMark :
    let t := after .closingMark (marked onA)
    told .a t = some "!LOSS ISN=0 REASON=MISSING SEV=DEGRADED" ∧ t.line.nextIsn = 1 ∧ t.counters.losses = 1 := by
  decide +kernel
-- R19, R20
theorem test_mediaInPacket :
    let t := after (.mediaInPacket (videoPacket 4000)) State.reset
    t.ingest.expected = some 4000 ∧ t.counters.accepted = 1 := by decide +kernel
-- R14
theorem test_mediaInPacket_short : (after (.mediaInPacket [0xD5]) State.reset).counters.malformed = 1 := by decide +kernel

/-! ## The output and the store -/

-- R142, R146
theorem test_packetSent :
    let t := after .packetSent (State.reset.onPack fun p =>
      { p with nextSeq := 65535, queue := [⟨0, 0, 0, 8192, 0, slice89750⟩] })
    t.pack.nextSeq = 0 ∧ t.pack.queue = [] := by decide +kernel
-- R146: the slice that waited is the one being sent when a third is handed over
theorem test_packetSent_handover :
    let p := State.reset.pack
    let o (n : U32) : OutSlice := ⟨n, 0, 0, 8192, 0, slice89750⟩
    ({ p with queue := [o 1, o 2], handed := 3 }.take 0 0 8192 slice89750).queue = [o 2, o 3] := by decide +kernel
-- R149, R25: the page of an ingest write and its staging slot
theorem test_storeCompletion :
    let t := after (.storeCompletion 1 (.done 3)) (inFlight (.ingestWrite 1 0 small) 0 State.reset)
    t.store.mem = [(2097152 + 122880, 3), (2097152 + 124928, 1), (2097152 + 124929, 2)] ∧ t.counters.corrected = 3 := by
  decide +kernel
-- R155: a fourth RETRY, so the write was not carried out
theorem test_storeCompletion_fourth_retry :
    let s := (inFlight (.ingestWrite 0 0 small) 3 State.reset).onStore fun st => { st with mem := [(124928, 7)] }
    let t := after (.storeCompletion 1 (.retry false)) s
    t.store.mem = [(124928, 7)] ∧ t.draws = s.draws ∧ t.counters.faults = 1 := by decide +kernel
-- R158
theorem test_accessTimeout :
    let t := after .accessTimeout (inFlight demand0 0 State.reset)
    t.counters.faults = 1 ∧ t.now = 6 ∧ t.store.flight = none := by decide +kernel

/-! ## The Hold Line -/

-- R54: the record before A is late, and the other takes the update
theorem test_dispositionUpdate :
    let t := after .dispositionUpdate (committed2.onCuts fun e =>
      { e with update := some ⟨1, 2, [⟨1, ⟨.drop, false⟩, some 5⟩, ⟨2, ⟨.drop, false⟩, some 5⟩]⟩ })
    t.cuts.answer = some ⟨1, some 2⟩
      ∧ t.line.records.map (fun r => (r.cut, r.edit)) = [(none, 0), (none, 0), (some 5, 1)] := by decide +kernel
-- R56
theorem test_shedInstruction :
    let t := after .shedInstruction (line3.onPace fun p => { p with instructions := [⟨.jump, [0, 1], false⟩] })
    told .a t = some "!SHED ISN=0 COUNT=2 REASON=JUMP SEV=DEGRADED" ∧ t.line.held = 1 := by decide +kernel
-- R61, R49
theorem test_slice :
    reply "SLICE ST=1 TAG=7 ISN=1" (.slice .a) line3 =
      some "OK TAG=7 ISN=1 TS=0 TC=10:00:00:01 PAGE=1 VIDEO=4 AUDIO=NO CAPT=0 COND=PARTIAL QUIET=YES DISP=KEEP CAPTIONS=KEEP STATE=HELD EDIT=0" := by
  decide +kernel
-- R62, R63, R109
theorem test_status :
    reply "STATUS ST=9 TAG=7" (.status .a) State.reset =
      some "OK TAG=7 H=0 T=250 B=2 MODE=BYPASS PACE=IDLE S=0 A=0 NEWEST=NONE O=0 RECORDS=0 FREE=3840 REF=HOLDOVER" := by
  decide +kernel

/-! ## Cuts -/

-- R54, R70, R177: the range of a DUMP hit is late whole, but two of the three ISNs up to the old span behind it are not
theorem test_updateAnswer_besideTheSpan :
    let dump : Awaiting := ⟨.hit ⟨1, 1446, .ingest, .dump, .isn 1446, true⟩,
      .unlisted ⟨1440, 1446⟩ (some ⟨1450, 1451⟩) 0, 1440, 10, false, false⟩
    let s (late : Nat) : State := (answered ⟨late, none⟩ false cut14).onCuts fun e => { e with awaiting := some dump }
    (told .a (after .updateAnswer (s 8)), told .a (after .updateAnswer (s 10))) =
      (some "!WATCH ISN=1446 W=1 POINT=INGEST DO=DUMP RESULT=LATE CUT=0 TRIM=7 IN=1440 OUT=1446 SPENT=YES SEV=DEGRADED",
        some "!WATCH ISN=1446 W=1 POINT=INGEST DO=DUMP RESULT=TOO-LATE TRIM=7 SPENT=YES SEV=ATTENTION") := by
  decide +kernel
-- section 4.11, worked example, and R186: cut 14 of which three ISNs came late
theorem test_updateAnswer :
    told .a (after .updateAnswer (answered ⟨3, some 1443⟩ false cut14)) =
      some "LATE TAG=7 CUT=14 TRIM=3 IN=1443 OUT=1446" := by decide +kernel
-- section 4.11, worked example, step 1: from head 1,449 with R = 8 the update names 1,441 to 1,449
theorem test_markIn :
    let t := after (.markIn .a) (asked "MARK-IN ST=1 TAG=7 ACTION=COVER COVER=TONE"
      ((marking []).onCuts fun e => { e with head := 1449 }))
    t.cuts.update.map (fun u => (u.first, u.count)) = some (1441, 9) ∧ t.cuts.cuts.map (·.id) = [15] := by decide +kernel
-- section 4.11, worked example, step 7: the target is 1,451 + 4
theorem test_markOut :
    reply "MARK-OUT ST=1 TAG=7 CUT=12" (.markOut .a) (marking [open12]) = some "OK TAG=7 CUT=12 TARGET=1455" := by
  decide +kernel
-- section 4.11, worked example, step 6: level 3 is below the cut's 5
theorem test_markOut_denied :
    reply "MARK-OUT ST=1 TAG=7 CUT=12" (.markOut .a)
      ((marking [open12]).onPorts fun ps => { ps with table := [{ Station.builtIn with level := 3 }] }) =
      some "DENIED TAG=7" := by decide +kernel
-- R76, R77
theorem test_cut :
    let t := after (.cut .a) (asked "CUT ST=1 TAG=7 IN=1 OUT=2" line3)
    t.cuts.update.map (fun u => u.items.map fun i => (i.isn, i.cut)) = some [(1, some 1), (2, some 1)] := by decide +kernel
-- R78: K = 0 and Q = 2 from boundary 0 and head 2
theorem test_dump :
    let t := after (.dump .a) (asked "DUMP ST=1 TAG=7" line3)
    t.cuts.cuts.map (fun c => (c.first, c.target)) = [(0, some (.isn 4))]
      ∧ t.cuts.update.map (fun u => (u.first, u.count)) = some (0, 3) := by decide +kernel
-- R80: without any key of R71
theorem test_amend : reply "AMEND ST=1 TAG=7 CUT=12" (.amend .a) (marking [open12]) = some "BAD TAG=7" := by decide +kernel
-- R69
theorem test_revoke : reply "REVOKE ST=1 TAG=7 CUT=9" (.revoke .a) (marking [open12]) = some "NOT-FOUND TAG=7" := by
  decide +kernel
-- R89
theorem test_cuts :
    reply "CUTS ST=1 TAG=7" (.cuts .a) (marking [open12, { cut14 with pend := none }]) =
      some "OK TAG=7 COUNT=2 IDS=12,14" := by decide +kernel

/-! ## Watches -/

-- R171: the ISN of the head is no longer to come
theorem test_watch :
    reply "WATCH ST=1 TAG=7 W=4 ISN=1451" (.watch .a) (marking []) = some "TOO-LATE TAG=7"
      ∧ reply "WATCH ST=1 TAG=7 W=4 ISN=1452" (.watch .a) (marking []) = some "OK TAG=7 W=4 STATE=ARMED" := by
  decide +kernel
-- R172
theorem test_watchReport :
    reply "WATCH ST=1 TAG=7 W=2" (.watchReport .a)
        ((marking []).onCuts fun e => { e with watches := [none, some ⟨.isn 1500, .playout, .notify, true, false, false, 0, 3⟩, none, none] }) =
      some "OK TAG=7 W=2 ISN=1500 POINT=PLAYOUT DO=NOTIFY REPEAT=EVERY STATE=ARMED HITS=0 BY=3" := by decide +kernel
-- R172
theorem test_unwatch : reply "UNWATCH ST=1 TAG=7 W=1" (.unwatch .a) State.reset = some "NOT-FOUND TAG=7" := by
  decide +kernel

/-! ## Pacing -/

-- R101
theorem test_targetGlide : reply "TARGET ST=1 TAG=7 T=4000" (.targetGlide .a) line3 = some "CLAMPED TAG=7 T=3600" := by
  decide +kernel
-- R102: H is 3, so two of the oldest are named
theorem test_targetJump :
    (after (.targetJump .a) (asked "TARGET ST=1 TAG=7 T=1 HOW=JUMP" line3)).pace.instructions = [⟨.jump, [0, 1], false⟩] := by
  decide +kernel
-- R102: one was shed, two were asked
theorem test_shedAnswer :
    told .a (after .shedAnswer ((answered.routedReached .a (req .target []) line3).onPace fun p =>
      { p with waiting := some (.jump .a 1 2 false), answers := [⟨1, false⟩] })) = some "LATE TAG=7 T=1 SHED=1" := by
  decide +kernel
-- R106: H is 0 and T is 250
theorem test_engage : reply "ENGAGE ST=1 TAG=7" (.engage .a) State.reset = some "OK TAG=7 STATE=REBUILD" := by
  decide +kernel
-- R104: the newest HELD record is spared
theorem test_bypass :
    (after (.bypass .a) (asked "BYPASS ST=1 TAG=7" line3)).pace.instructions = [⟨.bypass, [0, 1], false⟩] := by
  decide +kernel

/-! ## Windows -/

-- R164
theorem test_window :
    reply "WINDOW ST=1 TAG=7 W=2 BASE=3 LENGTH=4" (.window .a) (windowAt 1 0 4 .empty State.reset) =
      some "OVERLAP TAG=7" := by decide +kernel
-- R164: a window may end at block 256
theorem test_window_at_the_end :
    reply "WINDOW ST=1 TAG=7 W=2 BASE=252 LENGTH=4 LOOP=YES" (.window .a) State.reset =
      some "OK TAG=7 W=2 BASE=252 LENGTH=4 LOOP=YES CLIPS=0 STATE=EMPTY"
      ∧ reply "WINDOW ST=1 TAG=7 W=2 BASE=253 LENGTH=4" (.window .a) State.reset = some "BAD TAG=7" := by decide +kernel
-- R164
theorem test_windowReport :
    reply "WINDOW ST=1 TAG=7 W=8" (.windowReport .a) State.reset = some "OK TAG=7 W=8 DEFINED=NO" := by decide +kernel
-- R165
theorem test_load :
    reply "LOAD ST=1 TAG=7 W=1 STREAM=3 COUNT=4" (.load .a) (windowAt 1 0 4 .ready State.reset) =
      some "STARTED TAG=7 W=1 STREAM=3 COUNT=4" := by decide +kernel
-- R167
theorem test_clear :
    reply "CLEAR ST=1 TAG=7 W=1 UNDEFINE=YES" (.clear .a) (windowAt 1 0 4 .ready State.reset) =
      some "OK TAG=7 W=1 DEFINED=NO" := by decide +kernel

-- R163, R167: on an EMPTY window a CLEAR changes nothing, and a read of its blocks stays queued
theorem test_clear_empty :
    let s := (windowAt 1 0 4 .empty onA).onStore fun st => { st with cover := [wants (.coverRead 0 1 0 1)] }
    (after (.clear .a) (asked "CLEAR ST=1 TAG=7 W=1" s)).store = s.store := by decide +kernel

/-! ## The Control Ports -/

-- R180
theorem test_serialCharacter :
    ((after (.serialCharacter .b 10) (State.reset.onPort .b fun x => { x with line := ⟨[65], false, false, false⟩ })).ports.get
      .b).sending.map (·.text) = some "BAD TAG=NONE" := by decide +kernel
-- R184, R185
theorem test_datagram :
    let t := after (.datagram 9 ("CUTS ST=1 TAG=3".toList.map fun c => BitVec.ofNat 8 c.toNat)) State.reset
    (t.ports.n.current.map fun c => (c.req.word, c.req.address)) = some (.cuts, some 9)
      ∧ t.ports.table.map (fun st => (st.current, st.address)) = [(some .n, some 9)] := by decide +kernel
-- R186, R189: the drop count follows the severity of the next notice
theorem test_replySent :
    told .a (after (.replySent .a) ((busy onA).onPort .a fun x =>
      { x with notices := [⟨⟨"!RESYNC", .ingest, .degraded, [("OLD", .num 5), ("NEW", .num 9)]⟩, []⟩], drops := 2 })) =
      some "!RESYNC OLD=5 NEW=9 SEV=DEGRADED DROPPED=2" := by decide +kernel
-- R192
theorem test_counters :
    reply "COUNTERS ST=1 TAG=7 LIST=STORE" (.counters .a) State.reset =
      some "OK TAG=7 LIST=STORE RETRIES=0 FAULTS=0 CORRECTED=0" := by decide +kernel
-- R192
theorem test_countersClear :
    (after (.countersClear .a) (asked "COUNTERS ST=1 TAG=7 CLEAR=YES" (countFault State.reset))).counters.faults = 0 := by
  decide +kernel
-- R193
theorem test_portReset :
    ((after (.portReset .a) (asked "PORT-RESET ST=1 TAG=7" onA)).ports.get .a).sending.map (·.effect) = some .portReset := by
  decide +kernel

/-! ## Settings -/

-- R196
theorem test_set :
    reply "SET ST=1 TAG=7 PREFETCH=9 AUTOENGAGE=YES" (.set .a) State.reset =
      some "CLAMPED TAG=7 PREFETCH=3 AUTOENGAGE=YES" := by decide +kernel
-- R197
theorem test_setStation :
    reply "SET ST=1 TAG=7 STATION=2 PORT=B LEVEL=5 PERMS=CUT+VIEW GROUPS=NONE" (.setStation .a) State.reset =
      some "OK TAG=7 STATION=2 PORT=B LEVEL=5 PERMS=CUT+VIEW GROUPS=NONE" := by decide +kernel
-- R198
theorem test_param :
    reply "PARAM ST=1 TAG=7 NAME=C" (.param .a)
        (State.reset.onSettings fun x => { x with stored := { x.stored with fade := 128 } }) =
      some "OK TAG=7 C=128 NOW=64" := by decide +kernel
-- R200
theorem test_save :
    reply "SAVE ST=1 TAG=7 SLOT=4" (.save .a) State.reset = some "STARTED TAG=7 SLOT=4 GEN=1"
      ∧ reply "SAVE ST=1 TAG=7 SLOT=0" (.save .a) State.reset = some "NOT-PERMITTED TAG=7" := by decide +kernel
-- R200
theorem test_saveComplete :
    told .a (after (.saveComplete true) (onA.onSettings fun x => { x with save := some ⟨2, 7, 0, []⟩ })) =
      some "!SAVED SLOT=2 GEN=7 SEV=CONCEALED" := by decide +kernel
-- R200
theorem test_saveTimeout :
    told .a (after .saveTimeout (onA.onSettings fun x => { x with save := some ⟨2, 7, 0, []⟩ })) =
      some "!SAVE_FAILED SLOT=2 REASON=TIMEOUT SEV=ATTENTION" := by decide +kernel
-- R202
theorem test_profile : reply "PROFILE ST=1 TAG=7 SLOT=0" (.profile .a) State.reset = some "NOT-FOUND TAG=7" := by
  decide +kernel
-- R204
theorem test_restart :
    let t := after (.replySent .a) (after (.restart .a) (asked "RESTART ST=1 TAG=7" line3))
    t.settings.cause = .restartBy 1 ∧ t.line.records = [] := by decide +kernel

/-! ## Witnesses

For each statement with hypotheses, a state and operands that meet all of them; for one with several cases, one for each
case, at the ends of its range where it has one. -/

theorem committed2_lineOk : LineOk committed2 :=
  ⟨⟨0, by simp [runsOn, committed2, line3, State.onLine, State.onCuts, State.onPace, kept]⟩, by decide +kernel,
    by decide +kernel, by decide +kernel, by decide +kernel⟩
theorem reset_playOk : PlayOk State.reset := ⟨rfl, by decide +kernel⟩

-- a next state; and a closing mark with a record slot left for its record
theorem witness_CommandsTouchOnlyTheirBlocks :
    (∃ t, exec .linePulse State.reset = .next t) ∧ (.linePulse : Instr) ≠ .closingMark ∧ (marked onA).line.count < 4096 :=
  ⟨⟨_, rfl⟩, by decide, by decide +kernel⟩

theorem witness_OnlyEndingAccessesWriteTheMemory :
    let s := inFlight (.ingestWrite 1 0 small) 0 State.reset
    (.storeCompletion 1 (.done 0) : Instr) ≠ .powerOn ∧ (∃ t, exec (.storeCompletion 1 (.done 0)) s = .next t)
      ∧ endedBy s (some 1) = some ⟨wants (.ingestWrite 1 0 small), 1, 0, none⟩
      ∧ ¬ StoreJob.writesAt (.ingestWrite 1 0 small) 2097151 := by
  refine ⟨by decide, ⟨_, rfl⟩, by decide +kernel, ?_⟩
  simp [StoreJob.writesAt, StoreJob.writesAt.kinds, pageBase, small, Config.pageBytes]

theorem witness_IngestWriteDoneFillsItsPage :
    let s := inFlight (.ingestWrite 3839 2 small) 0 State.reset
    s.phase = .running ∧ s.store.outstanding = none
      ∧ s.store.flight = some ⟨wants (.ingestWrite 3839 2 small), 1, 0, none⟩
      ∧ (small.audio.getD []).length ≤ 122880 ∧ small.captions.length ≤ 2048 := by decide +kernel

-- a fourth RETRY of the write of record 0, which is not committed and is kept
theorem witness_IngestWriteDoneFillsItsPage_fault :
    let s := inFlight (.ingestWrite 0 2 small) 3 (line3.onLine fun l =>
      { l with records := [{ kept 0 with life := .writing }, kept 1, kept 2] })
    LineOk s ∧ s.phase = .running ∧ s.store.outstanding = none
      ∧ s.store.flight = some ⟨wants (.ingestWrite 0 2 small) 3, 1, 0, none⟩
      ∧ (s.line.records.filter fun x => decide (x.life = .writing) && decide (x.page = some 0)) =
          [{ kept 0 with life := .writing }]
      ∧ (kept 0).committed = false ∧ (kept 0).kept = true ∧ (kept 0).noticed = false :=
  ⟨⟨⟨0, by simp [runsOn, inFlight, line3, State.onStore, State.onLine, State.onCuts, State.onPace, kept]⟩,
    by decide +kernel, by decide +kernel, by decide +kernel, by decide +kernel⟩, by decide +kernel⟩

theorem witness_LinePulseWithoutMarkIsAccepted :
    let holdover := onA.onTimer fun t => { t with begun := true }
    (State.reset.phase = .running ∧ State.reset.timer.markPending = false ∧ State.reset.pace.period = none)
      ∧ holdover.phase = .running ∧ holdover.timer.markPending = false ∧ holdover.pace.period = none
      ∧ holdover.timer.locked = false ∧ holdover.timer.begun = true := by
  decide +kernel

theorem witness_LinePulseWithMarkPendingGivesNoPulse :
    let locked := marked onA
    let holdover := locked.onTimer fun t => { t with locked := false }
    (locked.phase = .running ∧ locked.timer.markPending = true ∧ locked.timer.begun = true ∧ locked.timer.locked = true)
      ∧ holdover.phase = .running ∧ holdover.timer.markPending = true ∧ holdover.timer.begun = true
      ∧ holdover.timer.locked = false := by decide +kernel

theorem witness_ExpiriesGivePulsesInHoldover :
    let free := State.reset.onTimer fun t => { t with begun := true, watchRuns := false, freeRuns := true, freeDue := 120 }
    (State.reset.phase = .running ∧ State.reset.timer.markPending = false ∧ State.reset.pace.period = none
        ∧ State.reset.timer.watchRuns = true)
      ∧ free.phase = .running ∧ free.timer.markPending = false ∧ free.pace.period = none ∧ free.timer.freeRuns = true := by
  decide +kernel

theorem witness_CountsRiseOnlyAtTheirEvents :
    (∃ t, exec .linePulse State.reset = .next t) ∧ ∃ t, exec .closingMark (marked onA) = .next t := ⟨⟨_, rfl⟩, ⟨_, rfl⟩⟩

theorem witness_HeaderChecksumFollowsItsRule :
    (65535 : Nat) < 65536
      ∧ (⟨0, 0, 15, 8192, 0, slice89750⟩ : OutSlice).packet 0 0 ≠ none
      ∧ 30 ≤ (videoPacket 0).length ∧ beValue ((videoPacket 0).take 2) = 0xD516
      ∧ onesSum (wordsOf [0xFF, 0xFF]) = 0xFFFF := by decide +kernel

theorem witness_MediaInReadsWhatMediaOutSends :
    let o : OutSlice := ⟨0, 4294967295, 15, 8192, 0, slice742⟩
    o.stream < 16 ∧ (4294967295 : Nat) < 4294967296 ∧ 1 ≤ (List.replicate 8192 (0 : Byte)).length
      ∧ (List.replicate 8192 (0 : Byte)).length ≤ 8192 ∧ o.slice.tc = some ⟨10, 15, 42, 7⟩ ∧ (42 : Nat) < 256
      ∧ ({ o with slice := { slice742 with tc := none } } : OutSlice).slice.tc = none := by
  decide +kernel

/-- The packet has the header check's outcome that a witness needs. -/
def passes (packet : Bytes) (ts : U32) : Bool :=
  match checkHeader packet with
  | .passed p => p.ts = ts && p.stream = 0
  | .malformed | .checksum => false

theorem witness_HeaderChecksAreMadeInOrder_marks :
    State.reset.phase = .running
      ∧ (List.replicate 29 (0 : Byte)).length < 30
      ∧ onesSum (wordsOf (([0xD5, 0x16] : Bytes) ++ List.replicate 28 0)) ≠ 0xFFFF := by decide +kernel
-- a header that verifies with kind 0 is misformed; one of kind 1 and length 4 passes
theorem witness_HeaderChecksAreMadeInOrder_kinds :
    onesSum (wordsOf ((([0xD5, 0x16, 0x00, 0x00] : Bytes) ++ List.replicate 24 0) ++ [0x2A, 0xE9])) = 0xFFFF
      ∧ onesSum (wordsOf ((videoPacket 7).take 30)) = 0xFFFF ∧ ((videoPacket 7).getD 2 0).toNat % 16 = 1
      ∧ ((videoPacket 7).getD 7 0).toNat = (videoPacket 7).length - 30 := by decide +kernel
-- the forward distances 2^31 (late), 1 and 2L - 1 (misaligned)
theorem witness_HeaderChecksAreMadeInOrder_window :
    let s := expecting 0 0
    s.phase = .running ∧ s.ingest.expected = some 0 ∧ s.sliceLength = 1920 ∧ s.force.stream = 0
      ∧ passes (videoPacket 2147483648) 2147483648 = true ∧ passes (videoPacket 1) 1 = true
      ∧ passes (videoPacket 3839) 3839 = true := by decide +kernel

/-- A video packet of four bytes for the oldest position, at an offset of so many in all. -/
def essencePacket (offset total : Nat) : Bytes :=
  outputHeader ⟨0, 0, 0, 8192, 0, slice742⟩ .video 0 offset 4 total ++ [9, 9, 9, 9]

-- a slot that has the bytes 4 to 7 of 20: the last place, one past the end, a duplicate, an overlap, its neighbour, another
-- total; and an empty slot, for the largest video and one byte more
theorem witness_FirstProgramPacketOpensTheWindow_slots :
    let slot : StagingSlot :=
      { StagingSlot.empty with st := .gathering, video := ⟨some 20, [⟨4, 4, [1, 1, 1, 1]⟩], false, false⟩ }
    let s (x : StagingSlot) := (expecting 0 0).onIngest fun i =>
      { i with
        window := [⟨0, false, some 2, false⟩, ⟨1920, false, none, false⟩], slots := [.empty, .empty, x] }
    ((s slot).phase = .running ∧ (s slot).ingest.expected = some 0 ∧ (s slot).ingest.slots[2]? = some slot
        ∧ (s slot).ingest.window = [⟨0, false, some 2, false⟩, ⟨1920, false, none, false⟩] ∧ (s slot).force.stream = 0)
      ∧ (∀ x ∈ [(16, 20), (17, 20), (4, 20), (6, 20), (8, 20), (0, 19), (0, 1966080), (0, 1966081)],
          let p : Packet := ⟨0, .video, 0, x.1, x.2, ⟨10, 15, 42, 7⟩, [9, 9, 9, 9]⟩
          checkHeader (essencePacket x.1 x.2) = .passed p
            ∧ PlacedAt (s slot) p 0 [] [⟨1920, false, none, false⟩] ⟨0, false, some 2, false⟩)
      ∧ (s .empty).ingest.slots[2]? = some .empty ∧ StagingSlot.empty.video.total = none
      ∧ StagingSlot.empty.video.ranges = [] ∧ slot.video.rejected = false := by
  unfold PlacedAt
  decide +kernel

/-- The outcome of the header check of a `videoPacket`. -/
def videoAt (ts : U32) : Packet := ⟨0, .video, ts, 0, 4, ⟨10, 15, 42, 7⟩, [9, 9, 9, 9]⟩

/-- Two draining positions, one under the timestamp of the newer open position, and the two open ones. -/
def drains (older newer : Position) (slots : List StagingSlot) : State :=
  (expecting 0 0).onIngest fun i =>
    { i with window := [⟨7, true, none, true⟩, ⟨1920, true, some 2, false⟩, older, newer], slots := slots }

-- a packet at E and one at E + L, behind draining positions; with a slot FREE and with none; and at a refused position
theorem witness_FirstProgramPacketOpensTheWindow_placed :
    let open_ (ts : U32) : Position := ⟨ts, false, none, false⟩
    let taken : List StagingSlot := List.replicate 3 { StagingSlot.empty with st := .writing }
    let draining : List Position := [⟨7, true, none, true⟩, ⟨1920, true, some 2, false⟩]
    checkHeader (videoPacket 0) = .passed (videoAt 0) ∧ checkHeader (videoPacket 1920) = .passed (videoAt 1920)
      ∧ PlacedAt (drains (open_ 0) (open_ 1920) taken) (videoAt 0) 0 draining [open_ 1920] (open_ 0)
      ∧ PlacedAt (drains (open_ 0) (open_ 1920) (.empty :: taken.tail)) (videoAt 1920) 0 (draining ++ [open_ 0]) []
          (open_ 1920)
      ∧ PlacedAt (drains (open_ 0) ⟨1920, false, none, true⟩ taken) (videoAt 1920) 0 (draining ++ [open_ 0]) []
          ⟨1920, false, none, true⟩
      ∧ PlacedAt (drains (open_ 0) ⟨1920, false, some 0, false⟩ taken) (videoAt 1920) 0 (draining ++ [open_ 0]) []
          ⟨1920, false, some 0, false⟩
      ∧ (∀ y ∈ taken, y.st ≠ .free) ∧ StagingSlot.empty.st = .free := by
  unfold PlacedAt
  decide +kernel

theorem witness_FirstProgramPacketOpensTheWindow :
    State.reset.phase = .running ∧ passes (videoPacket 4294967295) 4294967295 = true ∧ State.reset.force.stream = 0
      ∧ State.reset.ingest.expected = none ∧ State.reset.ingest.slots = List.replicate 3 .empty
      ∧ (0 : Nat) + [9, 9, 9, 9].length ≤ 4 ∧ Kind.rejects .video State.reset.sliceLength 4 = false := by decide +kernel

/-- A lane that loads a stream's clips into window 2, at a clip of a count. -/
def loading (st : LaneState) (clip count : Nat) (positions : List Position) (slots : List StagingSlot) : State :=
  (marked (windowAt 2 10 4 .loading State.reset)).onLane fun l =>
    { l with
      st := st, window := 2, stream := 3, count := count, base := 10, clip := clip, expected := 1920
      positions := positions, slots := slots }

/-- A staging slot that holds two bytes of video out of so many. -/
def twoOf (total : Nat) : StagingSlot :=
  { StagingSlot.empty with st := .gathering, video := ⟨some total, [⟨0, 2, [1, 2]⟩], false, false⟩ }

/-- The packet passes its header check for the lane's stream, and has its timestamp. -/
def lanePasses (packet : Bytes) (ts : U32) : Bool :=
  match checkHeader packet with
  | .passed p => p.ts = ts && p.stream = 3
  | .malformed | .checksum => false

/-- A video packet of the lane's stream. -/
def lanePacket (ts : U32) : Bytes := outputHeader ⟨0, ts, 3, 8192, 0, slice742⟩ .video 0 0 4 4 ++ [9, 9, 9, 9]

-- WAITING; RUNNING, for the lead-in, at the expected position, and at the ends of the misaligned, early and late ranges
theorem witness_FirstProgramPacketOpensTheWindow_lanePackets :
    let waiting := loading .waiting 0 4 [] (List.replicate 2 .empty)
    let running := (loading .running 0 4 [⟨1920, false, none, false⟩] (List.replicate 2 .empty)).onLane fun l =>
      { l with leadIn := some 0 }
    (waiting.phase = .running ∧ waiting.lane.stream = 3 ∧ waiting.force.stream = 0 ∧ 0 < waiting.sliceLength
        ∧ waiting.lane.st = .waiting ∧ lanePasses (lanePacket 0) 0 = true)
      ∧ running.phase = .running ∧ running.lane.st = .running ∧ running.sliceLength ≤ 1073741824
      ∧ running.lane.leadIn = some 0 ∧ running.lane.expected = 1920
      ∧ running.lane.positions.head? = some ⟨1920, false, none, false⟩
      ∧ running.lane.slots = List.replicate 2 .empty
      ∧ ([1920, 1921, 5759, 5760, 2147485567, 2147485568] : List U32).all (fun ts => lanePasses (lanePacket ts) ts) = true := by
  decide +kernel

theorem reset_arrivalsOk : ArrivalsOk State.reset := ⟨by decide +kernel, by decide +kernel⟩

-- the lead-in goes; an INTACT slice closes in the middle and at the end of the load; a PARTIAL one there; none at all
theorem witness_FirstProgramPacketOpensTheWindow_laneCloses :
    let x : Position := ⟨1920, false, some 0, false⟩
    let y : Position := ⟨3840, false, none, false⟩
    let at' (clip : Nat) (slot : StagingSlot) := loading .running clip 4 [x, y] [slot, .empty]
    let lead := (loading .running 0 4 [y] [.empty, .empty]).onLane fun l => { l with leadInHeld := true }
    (lead.lane.leadInHeld = true ∧ lead.lane.positions = [y] ∧ (at' 0 (twoOf 2)).lane.leadInHeld = false)
      ∧ (lead.phase = .running ∧ lead.timer.markPending = true ∧ lead.line.count < 4096 ∧ lead.lane.st = .running)
      ∧ ArrivalsOk lead ∧ ArrivalsOk (at' 0 (twoOf 2))
      ∧ (closePosition x (at' 0 (twoOf 2)).lane.slots).cond = .intact
      ∧ (closePosition x (at' 3 (twoOf 3)).lane.slots).cond = .partialSlice
      ∧ (∀ z ∈ (at' 3 (twoOf 3)).lane.slots, z.st ≠ .writing) ∧ (∀ j, x.slot = some j → y.slot ≠ some j)
      ∧ (0 : Nat) + 1 < 4 ∧ ¬ (3 : Nat) + 1 < 4 := by
  refine ⟨by decide +kernel, by decide +kernel, reset_arrivalsOk, reset_arrivalsOk, ?_⟩
  decide +kernel

-- the last write of a load ends DONE, and in FAULT
theorem witness_FirstProgramPacketOpensTheWindow_laneEnds :
    let writing : StagingSlot := { StagingSlot.empty with st := .writing, place := 13 }
    let s := inFlight (.loadWrite 2 13 1 small) 0 (loading .finishing 4 4 [] [.empty, writing])
    s.phase = .running ∧ s.store.outstanding = none
      ∧ s.store.flight = some ⟨wants (.loadWrite 2 13 1 small), 1, 0, none⟩
      ∧ s.lane.st = .finishing ∧ s.lane.slots = [.empty, writing] ∧ s.lane.faultMark = false := by decide +kernel

-- the ends of the early range: 2L and 2^31 - 1
theorem witness_FourthEarlyPacketResyncs :
    let s := expecting 0 3
    s.phase = .running ∧ passes (videoPacket 3840) 3840 = true ∧ passes (videoPacket 2147483647) 2147483647 = true
      ∧ s.ingest.expected = some 0 ∧ 0 < s.sliceLength ∧ s.ingest.early = 3
      ∧ (∀ x ∈ s.ingest.window, x.draining = false) := by decide +kernel

theorem witness_ClosingMarkMakesOneRecord :
    let open2 := marked (expecting 0 0)
    ((marked onA).phase = .running ∧ (marked onA).timer.markPending = true ∧ (marked onA).line.count < 4096
        ∧ (marked onA).ingest.window = [])
      ∧ open2.phase = .running ∧ open2.timer.markPending = true ∧ open2.line.count < 4096
      ∧ open2.ingest.window = [⟨0, false, none, false⟩, ⟨1920, false, none, false⟩] := by decide +kernel

/-- A slot of two received bytes of video is one that the tests of R27 and R28 leave. -/
theorem twoOf_sound (total length : Nat) (h : 2 ≤ total) : SlotSound (twoOf total) length := by
  refine ⟨fun k => ?_, fun n h => by simp [twoOf, StagingSlot.empty, KindBuf.empty] at h⟩
  cases k <;> simp [twoOf, StagingSlot.kindBuf, StagingSlot.empty, KindBuf.empty, h]

-- an INTACT slice, a PARTIAL one that lacks its third byte, and one for which no page is free; a refused position, and one
-- without a slot
theorem witness_ClosingMarkMakesOneRecord_judged :
    let s (x : Position) (total : Nat) := (marked onA).onIngest fun i =>
      { i with window := [x, ⟨1920, false, none, false⟩], slots := [twoOf total, .empty, .empty] }
    let held (total : Nat) := s ⟨0, false, some 0, false⟩ total
    let noPage := (held 2).onLine fun l => { l with freePool := [] }
    ((held 2).phase = .running ∧ (held 2).timer.markPending = true ∧ (held 2).line.count < 4096
        ∧ (held 2).ingest.window.head? = some ⟨0, false, some 0, false⟩ ∧ (held 2).ingest.slots[0]? = some (twoOf 2)
        ∧ (held 2).line.freePool ≠ [] ∧ noPage.line.freePool = [] ∧ (held 2).cuts.cuts = []
        ∧ (∀ w ∈ (held 2).cuts.watches, w = none) ∧ (held 2).lane.st = .idle)
      ∧ SlotSound (twoOf 2) (held 2).sliceLength ∧ SlotSound (twoOf 3) (held 3).sliceLength
      ∧ startedIn (twoOf 2) .video ∧ wholeIn (twoOf 2) .video ∧ ¬ wholeIn (twoOf 3) .video
      ∧ ((s ⟨0, false, none, true⟩ 2).ingest.window.head?).any (·.refused) = true
      ∧ ((s ⟨0, false, none, false⟩ 2).ingest.window.head?).any (fun x => x.slot = none) = true := by
  refine ⟨by decide +kernel, twoOf_sound 2 _ (by decide), twoOf_sound 3 _ (by decide), .inl (by decide), ?_, ?_, by decide +kernel, by decide +kernel⟩
  · intro n h i hi
    simp [twoOf, StagingSlot.kindBuf] at h hi
    exact ⟨⟨0, 2, [1, 2]⟩, by simp [twoOf, StagingSlot.kindBuf], by simp, by simp; omega⟩
  · intro h
    obtain ⟨g, hg, hl, hr⟩ := h 3 rfl 2 (by decide)
    simp [twoOf, StagingSlot.kindBuf] at hg
    subst hg
    simp at hr

/-- A slot with half a container of audio, a whole one, and captions cut at 2,048 bytes. -/
def patchy : StagingSlot :=
  { StagingSlot.empty with
    st := .gathering
    audio := ⟨some 64, [⟨0, 2, [1, 2]⟩, ⟨4, 4, [5, 6, 7, 8]⟩], false, false⟩
    caption := ⟨some 2049, [⟨0, 2049, List.replicate 2048 9⟩], false, true⟩ }

/-- The window's oldest position closes over a slot, at the rate whose slice is one sample frame. -/
def closesOver (x : Position) (slot : StagingSlot) : State :=
  ((marked onA).onForce fun f => { f with rate := 48000 }).onIngest fun i =>
    { i with window := [x, ⟨1, false, none, false⟩], slots := [.empty, slot, .empty] }

-- a slice with a page, one without, a refused position, and a draining one
theorem witness_ClosingMarkMakesOneRecord_handedOn :
    let held := closesOver ⟨0, false, some 1, false⟩ patchy
    let noPage := held.onLine fun l => { l with freePool := [] }
    SlotSound patchy held.sliceLength ∧ ArrivalsOk held ∧ ArrivalsOk noPage
      ∧ (held.phase = .running ∧ held.timer.markPending = true ∧ held.line.count < 4096
        ∧ held.ingest.window.head? = some ⟨0, false, some 1, false⟩ ∧ held.ingest.slots[1]? = some patchy)
      ∧ startedIn patchy .audio ∧ held.line.freePool ≠ [] ∧ noPage.line.freePool = []
      ∧ ((closesOver ⟨0, true, some 1, true⟩ patchy).ingest.window.head?).any (fun x => x.refused && x.draining) = true := by
  refine ⟨⟨fun k => ?_, by decide⟩, reset_arrivalsOk, reset_arrivalsOk, by decide +kernel, .inl (by decide), by decide +kernel⟩
  cases k <;> decide +kernel

-- R31, R33: half a container and the missing ones are kept as 0, captions cut at 2,048 are kept and counted, and the write
-- carries both
theorem test_closingMark_hands :
    let t := after .closingMark (closesOver ⟨0, false, some 1, false⟩ patchy)
    let e : Essence := ⟨[], some (0 :: 0 :: 0 :: 0 :: 5 :: 6 :: 7 :: 8 :: List.replicate 56 0), List.replicate 2048 9⟩
    t.store.flight.map (·.req.job) = some (.ingestWrite 0 1 e) ∧ t.counters.captionsCut = 1
      ∧ t.line.records.map (·.captBytes) = [2048] := by decide +kernel

theorem witness_ClosingMarkWithoutSlotStops :
    let s := (marked onA).onLine fun l => { l with records := List.replicate 4096 (kept 0) }
    s.phase = .running ∧ s.timer.markPending = true ∧ 4096 ≤ s.line.count := by decide +kernel

-- an update that straddles A, and one that lies wholly after it
theorem witness_DispositionUpdateIsTakenWhole :
    let u : Update := ⟨1, 2, [⟨2, ⟨.drop, false⟩, some 5⟩]⟩
    let s := committed2.onCuts fun e => { e with update := some u }
    s.phase = .running ∧ s.cuts.update = some u ∧ u.count ≤ 4096 ∧ fwd u.first s.line.boundary ≤ 4096
      ∧ fwd s.line.boundary 2 ≤ 4096 := by decide +kernel

theorem witness_ShedInstructionIsTakenWhole :
    let s := line3.onPace fun p => { p with instructions := [⟨.full, [0], true⟩] }
    s.phase = .running ∧ s.pace.instructions = [⟨.full, [0], true⟩]
      ∧ s.line.records.any (fun r => r.isn = 0 && s.line.amendable r && r.kept) = true := by decide +kernel

-- a record of the line, and the last ISN there is
theorem witness_SliceReportsTheRecord :
    let found := routed .a (req .slice [("ISN", "2")]) line3
    let missing := routed .a (req .slice [("ISN", "4294967295")]) line3
    (Routed found .a (req .slice [("ISN", "2")]) ∧ numberIn 0 4294967295 "2".toList = some 2)
      ∧ Routed missing .a (req .slice [("ISN", "4294967295")])
      ∧ numberIn 0 4294967295 "4294967295".toList = some 4294967295 :=
  ⟨⟨⟨rfl, rfl⟩, by decide +kernel⟩, ⟨rfl, rfl⟩, by decide +kernel⟩

theorem witness_StatusReportsTheDelay :
    Routed (routed .a (req .status []) line3) .a (req .status [])
      ∧ Routed (routed .a (req .status [("T", "1")]) line3) .a (req .status [("T", "1")])
      ∧ (QueuedLine.request ⟨"STATUS ST=99 TAG=7".toList.map fun c => BitVec.ofNat 8 c.toNat, false, false, none⟩).map
          (·.word) = some .status :=
  ⟨⟨rfl, rfl⟩, ⟨rfl, rfl⟩, by decide +kernel⟩

theorem witness_MarkInCutAndDumpEnterACut :
    let s := (routed .a (req .markIn []) line3)
    Routed s .a (req .markIn []) ∧ CutEngineFree s ∧ s.pace.mode = .engaged ∧ s.cuts.cuts.length < 32
      ∧ 1 ≤ s.cuts.nextId ∧ s.cuts.nextId ≤ 255 ∧ (req .markIn []).onlyKeys actionKeys = true
      ∧ (req .markIn []).actionFields = some ⟨none, none, none, none, none⟩
      ∧ ActionFields.forNew ⟨none, none, none, none, none⟩ = some (.drop, false) ∧ s.force.react ≤ 100 :=
  ⟨⟨rfl, rfl⟩, ⟨rfl, rfl, rfl⟩, by decide +kernel, by decide +kernel, by decide, by decide, by decide +kernel,
    by decide +kernel, by decide, by decide⟩
-- CUT of one record and up to the head
theorem witness_MarkInCutAndDumpEnterACut_cut :
    let r := req .cut [("IN", "2"), ("OUT", "2")]
    let s := routed .a r line3
    Routed s .a r ∧ CutEngineFree s ∧ s.pace.mode = .engaged ∧ s.cuts.cuts.length < 32
      ∧ r.onlyKeys (["IN", "OUT"] ++ actionKeys) = true ∧ r.actionFields = some ⟨none, none, none, none, none⟩
      ∧ r.isn "IN" = some 2 ∧ r.isn "OUT" = some 2 ∧ isAfter 2 s.cuts.head = false ∧ isAfter 2 2 = false
      ∧ fwd 2 2 ≤ 4095 :=
  ⟨⟨rfl, rfl⟩, ⟨rfl, rfl, rfl⟩, by decide +kernel⟩
-- DUMP with K = 0 and Q = 2, and with K = 3,600 and Q = 0
theorem witness_MarkInCutAndDumpEnterACut_dump :
    let s := routed .a (req .dump []) line3
    let far := s.onForce fun f => { f with dumpDepth := 3600, dumpTail := 0 }
    (Routed s .a (req .dump []) ∧ CutEngineFree s ∧ s.pace.mode = .engaged ∧ s.force.dumpDepth = 0
        ∧ s.force.dumpTail = 2 ∧ isAfter s.cuts.boundary s.cuts.head = false)
      ∧ Routed far .a (req .dump []) ∧ CutEngineFree far ∧ far.pace.mode = .engaged ∧ far.force.dumpDepth ≤ 3600
      ∧ far.force.dumpTail ≤ 25 :=
  ⟨⟨⟨rfl, rfl⟩, ⟨rfl, rfl, rfl⟩, by decide +kernel⟩, ⟨rfl, rfl⟩, ⟨rfl, rfl, rfl⟩, by decide +kernel⟩

-- ends by timecode, both found and the second not; the head, the last place of a range and one past it; an IN not created
theorem witness_MarkInCutAndDumpEnterACut_ends :
    let both := req .cut [("TCIN", "10:00:00:01"), ("TCOUT", "10:00:00:02")]
    let later := req .cut [("TCIN", "10:00:00:01"), ("TCOUT", "10:00:00:01")]
    let isns (first last : String) := req .cut [("IN", first), ("OUT", last)]
    let s := routed .a both line3
    (Routed s .a both ∧ CutEngineFree s ∧ s.pace.mode = .engaged ∧ s.cuts.cuts.length < 32)
      ∧ (both.onlyKeys (["IN", "TCIN", "OUT", "TCOUT"] ++ actionKeys) = true
        ∧ both.actionFields = some ⟨none, none, none, none, none⟩
        ∧ both.timecode s.force.rate "TCIN" = some ⟨10, 0, 0, 1⟩ ∧ both.has "IN" = false
        ∧ both.timecode s.force.rate "TCOUT" = some ⟨10, 0, 0, 2⟩ ∧ both.has "OUT" = false
        ∧ later.timecode s.force.rate "TCOUT" = some ⟨10, 0, 0, 1⟩)
      ∧ (s.line.records.filter fun x => decide (x.tc = some ⟨10, 0, 0, 2⟩)) = [kept 2]
      ∧ (s.line.records.filter fun x => decide (x.tc = some ⟨10, 0, 0, 9⟩)) = []
      ∧ (isns "0" "2").isn "OUT" = some 2 ∧ isAfter 2 s.cuts.head = false ∧ isAfter 0 4095 = false ∧ fwd 0 4095 = 4095
      ∧ isAfter 4095 s.cuts.head = true ∧ 4095 < fwd 0 4096 ∧ isAfter 3 s.cuts.head = true
      ∧ (isns "3" "4").isn "IN" = some 3 ∧ (isns "3" "4").has "TCIN" = false :=
  ⟨⟨⟨rfl, rfl⟩, ⟨rfl, rfl, rfl⟩, by decide +kernel⟩, by decide +kernel⟩

-- the boundary right after the head, with a tail of 2 and without one, and with a full list
theorem witness_MarkInCutAndDumpEnterACut_empty :
    let s := routed .a (req .dump []) (line3.onCuts fun e => { e with boundary := 3 })
    let full := s.onCuts fun e => { e with cuts := (List.range 32).map fun i => { open12 with id := i + 1 } }
    Routed s .a (req .dump []) ∧ CutEngineFree s ∧ s.pace.mode = .engaged ∧ s.force.dumpDepth = 0 ∧ s.force.dumpTail = 2
      ∧ isAfter s.cuts.boundary s.cuts.head = true ∧ s.cuts.cuts.length < 32 ∧ 1 ≤ s.cuts.nextId ∧ s.cuts.nextId ≤ 255
      ∧ full.cuts.boundary = 3 ∧ 32 ≤ full.cuts.cuts.length ∧ (s.ports.get .a).queue = []
      ∧ (s.onForce fun f => { f with dumpTail := 0 }).force.dumpTail = 0 :=
  ⟨⟨rfl, rfl⟩, ⟨rfl, rfl, rfl⟩, by decide +kernel⟩

-- a full list, without a span; a span right before the range, one that reaches into it, one that begins within it, and one
-- behind it with ISNs between
theorem witness_MarkInCutAndDumpEnterACut_unlisted :
    let full := line3.onCuts fun e => { e with cuts := (List.range 32).map fun i => { open12 with id := i + 1 } }
    let s := routed .a (req .dump []) full
    let wide (sp : Span) := full.onCuts fun e => { e with span := some sp }
    Routed s .a (req .dump []) ∧ CutEngineFree s ∧ s.pace.mode = .engaged ∧ 32 ≤ s.cuts.cuts.length ∧ s.cuts.span = none
      ∧ (wide ⟨0, 1⟩).cuts.span = some ⟨0, 0 + BitVec.ofNat 32 1⟩
      ∧ (wide ⟨0, 2⟩).cuts.span = some ⟨0, 0 + BitVec.ofNat 32 (2 + 0)⟩
      ∧ (wide ⟨1, 5⟩).cuts.span = some ⟨0 + BitVec.ofNat 32 1, 0 + BitVec.ofNat 32 (1 + 4)⟩
      ∧ (wide ⟨4294967295, 1⟩).cuts.span =
          some ⟨4294967290 + BitVec.ofNat 32 (2 + 1 + 2), 4294967290 + BitVec.ofNat 32 (2 + 1 + 2 + 2)⟩ :=
  ⟨⟨rfl, rfl⟩, ⟨rfl, rfl, rfl⟩, by decide +kernel⟩

/-- What the statement about a new cut's answer asks of a state. -/
def settles (s : State) (a : Awaiting) (ans : Answer) (c : Cut) : Bool :=
  s.phase = .running && (s.ports.get .a).current = some ⟨req .cut [], true⟩ && (s.ports.get .a).queue = []
    && s.cuts.awaiting = some a && a.job = .request .a (req .cut []) && s.cuts.answer = some ans
    && s.cuts.queue = [] && s.cuts.cut c.id = some c && a.openEnded = c.last.isNone

-- none late; three late; all seven of a closed cut late; all of an open-ended one, with its target, and no ISN left
theorem witness_UpdateAnswerSettlesANewCut :
    let a : Awaiting := ⟨.request .a (req .cut []), .entry 14, 1440, 7, false, false⟩
    settles (answered ⟨0, some 1440⟩ false cut14) a ⟨0, some 1440⟩ cut14 = true
      ∧ settles (answered ⟨3, some 1443⟩ false cut14) a ⟨3, some 1443⟩ cut14 = true
      ∧ settles (answered ⟨7, none⟩ false cut14) a ⟨7, none⟩ cut14 = true
      ∧ settles (answered ⟨7, none⟩ true { cut14 with last := none, target := some (.isn 1450) }) { a with openEnded := true }
          ⟨7, none⟩ { cut14 with last := none, target := some (.isn 1450) } = true := by decide +kernel
-- an AMEND, a REVOKE and an unlisted DUMP, the last with its whole range late and with none; and after a revoke-all
theorem witness_UpdateAnswerSettlesANewCut_others :
    let a (what : AwaitKind) : Awaiting := ⟨.request .a (req .cut []), what, 1440, 7, false, true⟩
    let dump : AwaitKind := .unlisted ⟨1440, 1446⟩ (some ⟨1430, 1439⟩) 0
    let s (what : AwaitKind) (late : Nat) : State :=
      (answered ⟨late, some 1443⟩ false cut14).onCuts fun e => { e with awaiting := some (a what) }
    settles (s (.entry 14) 3) (a (.entry 14)) ⟨3, some 1443⟩ cut14 = true
      ∧ settles (s (.amend 14) 3) (a (.amend 14)) ⟨3, some 1443⟩ cut14 = true
      ∧ settles (s (.revoke 14) 7) (a (.revoke 14)) ⟨7, some 1443⟩ cut14 = true
      ∧ settles (s dump 7) (a dump) ⟨7, some 1443⟩ cut14 = true ∧ settles (s dump 0) (a dump) ⟨0, some 1443⟩ cut14 = true
      ∧ through 1440 1446 = 7 := by decide +kernel

/-- What the statement about MARK-OUT asks of a state, with the station's level. -/
def endsOpen (s : State) (level : Nat) : Bool :=
  s.phase = .running && (s.ports.get .a).current = some ⟨req .markOut [("CUT", "12")], false⟩
    && s.cuts.awaiting = none && s.cuts.queue = [] && s.cuts.update = none
    && (s.ports.table.find? (fun x => x.station = 1)).map (·.level) = some level
    && s.cuts.cuts.find? (fun x => openEnded x && x.id = 12) = some open12
    && s.force.postRoll ≤ 25

-- with authority by level and a post-roll of 4 and of 0, and one level short of it
theorem witness_MarkOutEndsAnOpenCut :
    let s := routed .a (req .markOut [("CUT", "12")]) (marking [open12])
    let at4 := s.onPorts fun ps => { ps with table := [{ Station.builtIn with level := 4 }] }
    (req .markOut [("CUT", "12")]).keys = [("CUT", "12")] ∧ numberIn 0 255 "12".toList = some open12.id
      ∧ endsOpen s 15 = true ∧ open12.level ≤ 15 ∧ s.force.postRoll = 4
      ∧ endsOpen (s.onForce fun f => { f with postRoll := 0 }) 15 = true
      ∧ endsOpen at4 4 = true ∧ ¬ ((1 : Nat) = open12.station ∨ open12.level ≤ 4) := by decide +kernel

-- without CUT=, the later of two own cuts, past another station's and a closed one; and none; and a CUT= that is not listed
theorem witness_MarkOutEndsAnOpenCut_named :
    let own (id : Nat) : Cut := { open12 with id := id, station := 1 }
    let r := req .markOut []
    let s := routed .a r (marking [own 9, own 10, open12, cut14])
    let none' := routed .a r (marking [open12, cut14])
    let unlisted := req .markOut [("CUT", "14")]
    (Routed s .a r ∧ CutEngineFree s ∧ MarkOutNames s r (some (own 10)) ∧ s.force.postRoll ≤ 25
        ∧ s.ports.table.find? (fun y => y.station = r.station) = some { Station.builtIn with port := .only .a })
      ∧ (Routed none' .a r ∧ CutEngineFree none' ∧ MarkOutNames none' r none)
      ∧ MarkOutNames s unlisted none :=
  ⟨⟨⟨rfl, rfl⟩, ⟨rfl, rfl, rfl⟩, .inr ⟨rfl, by decide +kernel⟩, by decide +kernel⟩,
    ⟨⟨rfl, rfl⟩, ⟨rfl, rfl, rfl⟩, .inr ⟨rfl, by decide +kernel⟩⟩, .inl ⟨"14", 14, rfl, by decide +kernel⟩⟩

-- an ISN target, a timecode target and the open-cut limit, each met by the record of ISN 3; a closed cut is none of them
theorem witness_MarkOutEndsAnOpenCut_closures :
    let s := (marked line3).onCuts fun e => { e with cuts := [{ open12 with target := some (.isn 3) }, cut14] }
    let r : Rec := { kept 3 with tc := some ⟨10, 0, 0, 3⟩ }
    (s.phase = .running ∧ s.timer.markPending = true ∧ s.line.count < 4096 ∧ (s.cuts.cuts.map (·.id)).Nodup
        ∧ (∀ w ∈ s.cuts.watches, w = none))
      ∧ closureOf r 250 { open12 with target := some (.isn 3) } = some "MARK-OUT"
      ∧ closureOf r 250 { open12 with target := some (.tc ⟨10, 0, 0, 3⟩) } = some "TARGET"
      ∧ closureOf r 250 { open12 with first := 3 - 249 } = some "AUTO"
      ∧ closureOf r 250 { open12 with first := 3 - 248 } = none ∧ closureOf r 250 cut14 = none := by decide +kernel

theorem witness_RevokeAndAmendReachAListedCut :
    let r := req .revoke [("CUT", "12")]
    let s := routed .a r (marking [open12])
    Routed s .a r ∧ CutEngineFree s ∧ r.cutId = some 12 ∧ r.onlyKeys ["CUT"] = true
      ∧ s.ports.table.find? (fun x => x.station = r.station) = some { Station.builtIn with port := .only .a }
      ∧ s.cuts.cut 12 = some open12 ∧ open12.pend = none ∧ s.cuts.cut 13 = none ∧ open12.level ≤ 15
      ∧ through open12.first s.cuts.head ≠ 0 :=
  ⟨⟨rfl, rfl⟩, ⟨rfl, rfl, rfl⟩, by decide +kernel⟩
theorem witness_RevokeAndAmendReachAListedCut_amend :
    let r := req .amend [("CUT", "12"), ("CAPTIONS", "REMOVE")]
    let s := routed .a r (marking [open12])
    Routed s .a r ∧ CutEngineFree s ∧ r.cutId = some 12 ∧ r.onlyKeys ("CUT" :: actionKeys) = true
      ∧ actionKeys.any r.has = true ∧ r.actionFields = some ⟨none, none, none, none, some false⟩
      ∧ ActionFields.forAmend ⟨none, none, none, none, some false⟩ open12.action open12.captions =
          some (.cover .tone false, false) :=
  ⟨⟨rfl, rfl⟩, ⟨rfl, rfl, rfl⟩, by decide +kernel⟩

-- a cut whose range names no ISN yet, one past the head
theorem witness_RevokeAndAmendReachAListedCut_empty :
    let ahead : Cut := { open12 with first := 1452 }
    let r := req .revoke [("CUT", "12")]
    let s := routed .a r (marking [ahead])
    Routed s .a r ∧ CutEngineFree s ∧ s.cuts.cut 12 = some ahead ∧ ahead.pend = none ∧ ahead.level ≤ 15
      ∧ through ahead.first s.cuts.head = 0 ∧ (s.ports.get .a).queue = [] :=
  ⟨⟨rfl, rfl⟩, ⟨rfl, rfl, rfl⟩, by decide +kernel⟩

-- each row of the table is met: a DROP, a COVER beside a MUTE, a MUTE, nothing, and the unlisted span
theorem witness_EffectiveDispositionFollowsTheTable :
    let e (cuts : List Cut) : CutEngine := (marking cuts).cuts
    (e [{ cut14 with action := .drop }, open12]).derive 1441 = (⟨.drop, false⟩, some 14)
      ∧ (e [open12, cut14]).derive 1441 = (⟨.cover .tone false, false⟩, some 12)
      ∧ (e [open12, cut14]).derive 1440 = (⟨.mute 3, false⟩, some 14)
      ∧ (e [open12, cut14]).derive 1439 = (⟨.keep, true⟩, none)
      ∧ ({ e [open12] with span := some ⟨1441, 1442⟩ }).derive 1442 = (⟨.drop, false⟩, some 0) := by decide +kernel

theorem witness_CommitReportMovesTheCuts :
    (((marking [open12, cut14]).cuts.cuts).map (·.id)).Nodup ∧ isAfter 1447 1446 = true ∧ isAfter 1442 open12.first = true := by
  decide +kernel

theorem witness_CutsReportsTheList :
    let s := routed .a (req .cuts []) (marking [open12])
    let one := routed .a (req .cuts [("CUT", "255")]) (marking [open12])
    (Routed s .a (req .cuts []) ∧ CutEngineFree s) ∧ Routed one .a (req .cuts [("CUT", "255")]) ∧ CutEngineFree one
      ∧ numberIn 0 255 "255".toList = some 255 :=
  ⟨⟨⟨rfl, rfl⟩, rfl, rfl, rfl⟩, ⟨rfl, rfl⟩, ⟨rfl, rfl, rfl⟩, by decide +kernel⟩

-- a move that tells; a forced repeat and a forced skip without one; the shed demand with a follower and without; and the
-- three pulses
theorem witness_PacingChoosesThePeriodsKind :
    let pacing (st : PaceState) (target slip : Nat) : State :=
      ((busy line3).onPace fun p => { p with st := st, slip := slip }).onForce fun f => { f with target := target }
    let loud (s : State) : State :=
      (s.onLine fun l => { l with records := l.records.map fun x => { x with quiet := false } }).onPlay fun p =>
        { p with last := some ⟨4294967295, none, false, ⟨⟨.keep, true⟩, none⟩, .intact, small, none, false⟩ }
    let moves := pacing .steady 250 0
    let repeats := loud (pacing .rebuild 250 9000)
    let skips := loud (pacing .trim 1 9000)
    let full (x : Rec) : State := (pacing .trim 1 9000).onLine fun l => { l with records := List.replicate 4088 x }
    let pulsed := line3.onTimer fun t => { t with freeRuns := true }
    (moves.pace.mode = .engaged ∧ movedState .steady moves.line.held 250 moves.force.band = .rebuild
        ∧ moves.ports.audience .a .pacing ≠ [] ∧ moves.line.records.length < 4088)
      ∧ (movedState .rebuild repeats.line.held 250 repeats.force.band = .rebuild ∧ 8192 ≤ min 12287 (9000 + repeats.force.rebuild)
        ∧ repeats.play.last.map (·.quiet) = some false)
      ∧ (movedState .trim skips.line.held 1 skips.force.band = .trim ∧ ((waitsIn skips).head?.map (·.quiet)) = some false
        ∧ 2 ≤ skips.line.records.countP fun x =>
          skips.line.amendable x && x.kept && !x.skipped && x.life != .writing && x.life != .emitting)
      ∧ ((full (kept 0)).line.records.length = 4088 ∧ ((waitsIn (full (kept 0)))[1]?).map (·.isn) = some 0)
      ∧ (waitsIn (full { kept 0 with skipped := true }))[1]? = none
      ∧ pulsed.phase = .running ∧ pulsed.timer.markPending = false ∧ pulsed.pace.period = none
      ∧ pulsed.timer.watchRuns = true ∧ pulsed.timer.freeRuns = true := by decide +kernel
-- R105: two of three kept records are passed, and none of one
theorem witness_PacingChoosesThePeriodsKind_bypass :
    let s := line3.onPace fun p => { p with mode := .bypass, st := .idle }
    let one := s.onLine fun l => { l with records := [kept 0] }
    s.pace.mode = .bypass ∧ (pacePeriod s).pace.instructions = [⟨.bypass, [0, 1], true⟩]
      ∧ (pacePeriod one).pace.instructions = [] := by decide +kernel

/-- `line3` with the records' buffer slots in the states given. -/
def buffered (phases : List BufPhase) : State :=
  line3.onPlay fun p =>
    { p with
      slots := (phases.zipIdx.map fun (x, i) => (⟨some (BitVec.ofNat 32 i), x, .none⟩ : BufSlot))
        ++ List.replicate (4 - phases.length) .empty }

/-- A record has been emitted. -/
def emittedOnce (s : State) : State :=
  s.onPlay fun p => { p with last := some ⟨4294967295, none, true, ⟨⟨.keep, true⟩, none⟩, .intact, small, none, false⟩ }

theorem line3_lineOk : LineOk line3 :=
  ⟨⟨0, by simp [runsOn, line3, State.onLine, State.onCuts, State.onPace, kept]⟩, by decide +kernel, by decide +kernel,
    by decide +kernel, by decide +kernel⟩
theorem buffered_lineOk (phases : List BufPhase) : LineOk (buffered phases) := line3_lineOk

-- an emission, a concealed one, a freeze, an underrun, a repeat, and a SKIP to a follower in hand
theorem witness_PacingChoosesThePeriodsKind_playout :
    let ready := buffered [.ready 0 small, .ready 0 small]
    let faulted := buffered [.faulted]
    let fetching := buffered [.fetching true 0]
    LineOk ready ∧ LineOk faulted ∧ LineOk fetching ∧ LineOk State.reset
      ∧ (chosenIn .normal ready).map (fun x => emittedIn ready x) = some true
      ∧ (chosenIn .normal faulted).map (fun x => concealedIn faulted x) = some true
      ∧ (chosenIn .normal fetching).map (fun x => emittedIn fetching x || concealedIn fetching x) = some false
      ∧ chosenIn .normal State.reset = none ∧ (emittedOnce ready).play.last ≠ none
      ∧ skipsIn .skip ready = true ∧ (chosenIn .skip ready).map (·.isn) = some 1
      ∧ ((playPeriod .skip ready).pack.queue.map fun o => (o.slice.origin, o.slice.captions)) = [(1, [3, 3])] :=
  ⟨buffered_lineOk _, buffered_lineOk _, buffered_lineOk _,
    ⟨⟨0, rfl⟩, by decide, by decide +kernel, by simp [State.reset, HoldLine.init], by decide +kernel⟩, by decide +kernel⟩

/-- The due slice is covered from window 1, its essence in hand and its cover read as given. -/
def windowed (read : CoverRead) (committed : Bool) : State :=
  let s := emittedOnce (busy (buffered [.ready 0 small]))
  ((s.onLine fun l =>
    { l with
      records := { kept 0 with fields := ⟨.cover (.window 1) true, true⟩, cut := some 5, committed := committed } ::
        l.records.drop 1
      commitPoint := if committed then some 0 else none }).onPlay fun p =>
    { p with slots := p.slots.set 0 ⟨some 0, .ready 0 small, read⟩ })

theorem unread_lineOk (committed : Bool) : LineOk (windowed .none committed) := by
  refine ⟨⟨0, ?_⟩, ?_⟩
  · simp [runsOn, windowed, emittedOnce, busy, buffered, line3, State.onPort, State.onPorts, State.onLine, State.onCuts,
      State.onPace, State.onPlay, kept]
  · cases committed <;> exact ⟨by decide +kernel, by decide +kernel, by decide +kernel, by decide +kernel⟩
theorem windowed_lineOk (read : CoverRead) (committed : Bool) : LineOk (windowed read committed) := unread_lineOk committed

-- a late fetch, an underrun, and window covers that fall back: committed before, and at this period start; and one in hand
theorem witness_PacingChoosesThePeriodsKind_told :
    let late := emittedOnce (busy (buffered [.fetching true 0]))
    let empty := emittedOnce (busy onA)
    LineOk late ∧ LineOk empty ∧ LineOk (windowed (.failed .fault none) true) ∧ LineOk (windowed .none false)
      ∧ (lateIn .normal late).map (·.noticed) = some false
      ∧ (underrunIn .normal empty && !empty.play.underrun) = true
      ∧ (fallsBackIn .normal (windowed (.failed .fault none) true)).map (·.2) = some (1, "FAULT")
      ∧ (fallsBackIn .normal (windowed .none false)).map (·.2) = some (1, "NOT-READY")
      ∧ fallsBackIn .normal (windowed (.done 0 small) true) = none
      ∧ late.ports.audience .a .faults ≠ [] ∧ (late.ports.get .a).sending ≠ none
      ∧ (late.ports.get .a).notices.length + late.cuts.cuts.length < 32 :=
  ⟨buffered_lineOk [.fetching true 0], ⟨⟨0, rfl⟩, by decide, by decide +kernel, by simp [emittedOnce, busy, onA, State.reset, HoldLine.init,
      State.onPlay, State.onPort, State.onPorts], by decide +kernel⟩,
    windowed_lineOk _ _, windowed_lineOk _ _, by decide +kernel⟩

-- R118, R119, R126: what each of them tells
theorem test_playPeriod_tells :
    ([emittedOnce (busy (buffered [.fetching true 0])), emittedOnce (busy onA), windowed (.failed .fault none) true].map
        fun s => ((playPeriod .normal s).ports.get .a).notices.map (·.notice.text)) =
      [["!LATE_FETCH ISN=0 REASON=FETCHING SEV=DEGRADED"], ["!UNDERRUN O=0 SEV=DEGRADED"],
        ["!COVER_FALLBACK ISN=0 CUT=5 WINDOW=1 REASON=FAULT SEV=DEGRADED"]] := by decide +kernel

-- the due slice takes a slot; a queued prefetch of it gives way to a demand fetch
theorem witness_PacingChoosesThePeriodsKind_replan :
    let s := buffered [.fetching false 0]
    LineOk s ∧ PlayOk s ∧ (waitsIn s).head?.map (·.isn) = some 0
      ∧ (replan s).play.slots.head?.map (·.phase) = some (.fetching true 0) :=
  ⟨buffered_lineOk _, ⟨rfl, by decide +kernel⟩, by decide +kernel⟩

-- GLIDE and JUMP, the latter with fewer kept records asked for than stand
theorem witness_TargetSetsTheDepth :
    let glide := routed .a (req .target [("T", "0")]) line3
    let jump := routed .a (req .target [("T", "1"), ("HOW", "JUMP")]) line3
    (Routed glide .a (req .target [("T", "0")]) ∧ PacingFree glide ∧ numberOf "0".toList = some 0)
      ∧ Routed jump .a (req .target [("T", "1"), ("HOW", "JUMP")]) ∧ PacingFree jump ∧ numberOf "1".toList = some 1
      ∧ 1 < jump.line.held ∧ (jump.line.records.filter fun x => jump.line.amendable x && x.kept) ≠ [] :=
  ⟨⟨⟨rfl, rfl⟩, ⟨rfl, rfl, rfl⟩, by decide⟩, ⟨rfl, rfl⟩, ⟨rfl, rfl, rfl⟩, by decide +kernel⟩

theorem witness_ShedAnswerIsTaken :
    let s := answered.routedReached .a (req .target []) line3
    let jump := s.onPace fun p => { p with waiting := some (.jump .a 1 2 false), answers := [⟨2, false⟩] }
    let bypass := s.onPace fun p => { p with waiting := some (.bypass .a), answers := [⟨0, false⟩] }
    let period := line3.onPace fun p => { p with period := some .full, answers := [⟨1, true⟩] }
    (jump.phase = .running ∧ jump.pace.queue = [] ∧ (jump.ports.get .a).current = some ⟨req .target [], true⟩)
      ∧ (bypass.phase = .running ∧ bypass.pace.queue = [] ∧ bypass.pace.waiting = some (.bypass .a))
      ∧ period.phase = .running ∧ period.pace.queue = [] ∧ period.pace.period = some .full := by decide +kernel

theorem witness_EngagePutsThePartIntoDelay :
    let s := routed .a (req .engage []) State.reset
    Routed s .a (req .engage []) ∧ PacingFree s ∧ (s.ports.get .a).queue = [] ∧ s.pace.mode = .bypass
      ∧ (routed .a (req .engage []) line3).pace.mode = .engaged :=
  ⟨⟨rfl, rfl⟩, ⟨rfl, rfl, rfl⟩, by decide +kernel⟩

theorem witness_BypassTakesThePartOutOfDelay :
    let s := routed .a (req .bypass []) (busy line3)
    Routed s .a (req .bypass []) ∧ PacingFree s ∧ (s.ports.get .a).sending ≠ none
      ∧ (s.cuts.cuts.map (·.id)).Nodup ∧ s.pace.mode = .engaged
      ∧ (routed .a (req .bypass []) (busy State.reset)).pace.mode = .bypass :=
  ⟨⟨rfl, rfl⟩, ⟨rfl, rfl, rfl⟩, by decide +kernel⟩

theorem witness_FadeAndToneKeepTheirShape : (255 : Nat) < 256 := by decide

-- each join and each treatment of an edge has its case
theorem witness_FadeAndToneKeepTheirShape_joins :
    let x (plan : Option Join) (c : ChanClass) : OutInfo := ⟨7, false, false, [c], plan, [true]⟩
    let y (spliced : Bool) (c : ChanClass) (n : Option Body) : Arrival := ⟨8, false, ⟨[c], false, [[5]]⟩, spliced, n⟩
    (actualJoin (some (x (some .gap) .program)) (y false .program none) = .gap
        ∧ actualJoin (some (x none .program)) (y true .program (some ⟨[.program], false, [[9]]⟩)) = .splice
        ∧ actualJoin (some (x none .program)) (y false .zero none) = .edge
        ∧ actualJoin (some (x none .program)) (y false .program none) = .continuous)
      ∧ (1 : Nat) ≤ [[5]].length ∧ sameClass (.clip 1 (some 0)) (.clip 1 (some 1))
      ∧ ¬ sameClass (.clip 1 (some 0)) (.clip 1 (some 0)) := by
  refine ⟨by decide +kernel, by decide, .inr ⟨1, 0, rfl, rfl⟩, ?_⟩
  rintro (⟨-, h | h | h⟩ | ⟨w, i, h, g⟩)
  · cases h
  · cases h
  · cases h
  · cases h; cases g

-- a clip in hand, one that never came, and a skipped slice's captions
theorem witness_CoveredAndMutedAudioStaysOffTheBody_picture :
    let s := (buffered [.ready 0 small]).onPlay fun p =>
      { p with slots := p.slots.map fun b => if b.isn = some 0 then { b with cover := .done 2 small } else b }
    s.play.coverOf 0 = some (.done 2 small) ∧ s.play.coverOf 1 = none
      ∧ s.play.phaseOf 0 = some (.ready 0 small) ∧ (kept 0).fields.captions = true := by decide +kernel

theorem witness_CoveredAndMutedAudioStaysOffTheBody :
    let covered : Source := ⟨false, ⟨.cover .tone true, true⟩, small, none⟩
    let muted : Source := ⟨false, ⟨.mute 3, true⟩, ⟨[], some [], []⟩, none⟩
    covered.fields.disp = .cover .tone true
      ∧ muted.hidden = false ∧ muted.fields.disp = .mute 3 ∧ muted.essence.audio = some [] := by
  decide +kernel

-- the caption packet of section 7.5: the last of its slice, and the first of two
theorem witness_PacketSentTakesTheNextPacket :
    let one := State.reset.onPack fun p => { p with queue := [⟨0, 0, 0, 8192, 0, slice89750⟩] }
    let two := State.reset.onPack fun p => { p with queue := [⟨0, 0, 0, 36, 0, slice89750⟩] }
    one.phase = .running ∧ packetCount 8192 slice89750.runs = 1 ∧ two.phase = .running
      ∧ packetCount 36 slice89750.runs = 2
      ∧ (∀ x ∈ slice89750.runs, x.2.length < 4294967296) ∧ slice89750.tc = some ⟨14, 2, 31, 18⟩ := by decide +kernel

theorem witness_PacketsCarryTheRunsWhole : (0 : Nat) < 1 ∧ slice89750.runs = [(.caption, List.replicate 37 0)] := by
  decide +kernel

-- R138, R140: a frame of the extreme samples, and no video run
theorem witness_PacketsCarryTheRunsWhole_runs :
    let frame : Frame := -8388608 :: -1 :: 0 :: 8388607 :: List.replicate 12 0
    let r : Rendered := { slice89750 with audio := [frame] }
    (∀ f ∈ r.audio, f.length = 16) ∧ r.audio[0]? = some frame ∧ frame[0]? = some (-8388608)
      ∧ r.runs = [(.audio, [255, 128, 0, 0, 255, 255, 255, 255, 0, 0, 0, 0, 0, 127, 255, 255] ++ List.replicate 48 0),
          (.caption, List.replicate 37 0)] := by decide +kernel

theorem witness_RetryIsHonouredBeforeAFault :
    let two := (inFlight demand0 2 line3).onLine fun l => { l with records := [kept 0] }
    let three := (inFlight demand0 3 line3).onLine fun l => { l with records := [kept 0] }
    two.phase = .running ∧ two.store.outstanding = none ∧ two.store.flight = some ⟨wants demand0 2, 1, 0, none⟩
      ∧ three.phase = .running ∧ three.store.outstanding = none
      ∧ three.store.flight = some ⟨wants demand0 3, 1, 0, none⟩
      ∧ three.line.find 0 = some (kept 0) ∧ (kept 0).kept = true ∧ (kept 0).edit = 0 ∧ (kept 0).noticed = false := by
  decide +kernel

-- a demand fetch of the due slice, and a prefetch of the one behind it; the queues in order of arrival
theorem witness_RetryIsHonouredBeforeAFault_atTheSlot :
    let s := inFlight demand0 3 (buffered [.fetching true 0])
    let later : StoreJob := .fetch false 1 1 0 1 4 false 0
    let t := inFlight later 3 ((buffered [.ready 0 small, .fetching false 0]).onForce fun f => { f with prefetch := 2 })
    (LineOk s ∧ PlayOk s ∧ s.phase = .running ∧ s.store.outstanding = none
        ∧ s.store.flight = some ⟨wants demand0 3, 1, 0, none⟩
        ∧ s.play.slotOf 0 = some 0 ∧ s.play.phaseAt 0 = .fetching true 0 ∧ kept 0 ∈ s.line.records
        ∧ (waitsIn s).head? = some (kept 0))
      ∧ (LineOk t ∧ PlayOk t ∧ t.store.flight = some ⟨wants later 3, 1, 0, none⟩ ∧ t.play.slotOf 1 = some 1
        ∧ t.play.phaseAt 1 = .fetching false 0 ∧ kept 1 ∈ t.line.records
        ∧ (waitsIn t).head? ≠ some (kept 1) ∧ kept 1 ∈ (waitsIn t).take (1 + t.force.prefetch))
      ∧ ArrivalsOk s :=
  ⟨⟨line3_lineOk, ⟨rfl, by decide +kernel⟩, by decide +kernel⟩,
    ⟨line3_lineOk, ⟨rfl, by decide +kernel⟩, by decide +kernel⟩, by decide +kernel, by decide +kernel⟩

-- DONE of the prefetch behind the due slice; and a prefetch of the due slice that has had three retries
theorem witness_RetryIsHonouredBeforeAFault_prefetch :
    let later : StoreJob := .fetch false 1 1 0 1 4 false 0
    let s := (buffered [.ready 0 small, .fetching false 0]).onForce fun f => { f with prefetch := 2 }
    let done := s.onStore fun st => { st with flight := some ⟨wants later, 1, 0, some small⟩, grants := 1, arrivals := 1 }
    let due : StoreJob := .fetch false 0 0 0 0 4 false 0
    let fault := inFlight due 3 (buffered [.fetching false 0])
    (LineOk done ∧ PlayOk done ∧ done.phase = .running ∧ done.store.flight = some ⟨wants later, 1, 0, some small⟩
        ∧ done.play.slotOf 1 = some 1 ∧ done.play.phaseAt 1 = .fetching false 0
        ∧ (waitsIn done).head? ≠ some (kept 1) ∧ kept 1 ∈ (waitsIn done).take (1 + done.force.prefetch)
        ∧ (done.line.records.filter fun x => decide (x.life = .emitting) && !x.ended).length
            + ((waitsIn done).take (1 + done.force.prefetch)).length ≤ 4 ∧ (1 : Isn) ∉ done.play.faults)
      ∧ (LineOk fault ∧ PlayOk fault ∧ fault.store.flight = some ⟨wants due 3, 1, 0, none⟩ ∧ fault.play.slotOf 0 = some 0
        ∧ fault.play.phaseAt 0 = .fetching false 0 ∧ (waitsIn fault).head? = some (kept 0) ∧ (kept 0).page = some 0) :=
  ⟨⟨line3_lineOk, ⟨rfl, by decide +kernel⟩, by decide +kernel⟩,
    ⟨line3_lineOk, ⟨rfl, by decide +kernel⟩, by decide +kernel⟩⟩

/-- A cover read in flight for slot 1, which holds record 0. -/
def coverRead0 (retries : Nat) : State :=
  (inFlight (.coverRead 0 2 7 1) retries line3).onPlay fun p =>
    { p with slots := [.empty, ⟨some 0, .ready 0 .empty, .reading 5⟩, .empty, .empty] }

theorem witness_CoverReadFaultsAreAbsorbed :
    let s := coverRead0 0
    let t := coverRead0 3
    (s.phase = .running ∧ s.store.outstanding = none ∧ s.store.flight = some ⟨wants (.coverRead 0 2 7 1), 1, 0, none⟩
        ∧ s.play.slotOf 0 = some 1 ∧ s.play.coverAt 1 = .reading 5)
      ∧ t.phase = .running ∧ t.store.outstanding = none
      ∧ t.store.flight = some ⟨wants (.coverRead 0 2 7 1) 3, 1, 0, none⟩
      ∧ t.play.slotOf 0 = some 1 ∧ t.play.coverAt 1 = .reading 5 := by decide +kernel

theorem witness_LateCompletionIsDiscarded :
    let left := State.reset.onStore fun st =>
      { st with outstanding := some ⟨wants demand0, 1, 0, none⟩, grants := 1, demand := [wants demand0] }
    endedBy (inFlight demand0 0 State.reset) (some 2) = none
      ∧ left.phase = .running ∧ left.store.outstanding = some ⟨wants demand0, 1, 0, none⟩
      ∧ left.store.flight = none ∧ left.store.demand = [wants demand0] := by decide +kernel

-- a definition over a LOADING window, over blocks of another, over its own blocks, and elsewhere; windows 1 and 8
theorem witness_WindowRequestsFollowTheirChecks_window :
    let r := req .window [("W", "1"), ("BASE", "0"), ("LENGTH", "4")]
    let last := req .window [("W", "8"), ("BASE", "255"), ("LENGTH", "1")]
    let at1 (st : WindowState) := routed .a r (windowAt 1 0 4 st State.reset)
    let overlap := routed .a r (windowAt 2 3 4 .empty State.reset)
    let elsewhere := routed .a last (windowAt 8 0 4 .ready State.reset)
    (Routed (at1 .loading) .a r ∧ Routed (at1 .ready) .a r ∧ Routed overlap .a r ∧ Routed elsewhere .a last)
      ∧ r.windowDef = some (1, ⟨0, 4, false⟩) ∧ last.windowDef = some (8, ⟨255, 1, false⟩)
      ∧ (at1 .loading).store.windows.length = 8 ∧ (at1 .loading).store.window 1 = ⟨some ⟨0, 4, false⟩, 0, .loading⟩
      ∧ (at1 .ready).store.window 1 = ⟨some ⟨0, 4, false⟩, 0, .ready⟩
      ∧ overlap.store.windows[1]? = some ⟨some ⟨3, 4, false⟩, 0, .empty⟩
      ∧ elsewhere.store.window 8 = ⟨some ⟨0, 4, false⟩, 0, .ready⟩ :=
  ⟨⟨⟨rfl, rfl⟩, ⟨rfl, rfl⟩, ⟨rfl, rfl⟩, rfl, rfl⟩, by decide +kernel⟩
theorem witness_WindowRequestsFollowTheirChecks_clear :
    let r := req .clear [("W", "8")]
    let s (st : WindowState) := routed .a r (windowAt 8 0 4 st State.reset)
    (Routed (s .ready) .a r ∧ Routed (s .loading) .a r ∧ Routed (routed .a r State.reset) .a r)
      ∧ r.clearKeys = some (8, false) ∧ (req .clear [("W", "1"), ("UNDEFINE", "YES")]).clearKeys = some (1, true)
      ∧ (s .loading).store.window 8 = ⟨some ⟨0, 4, false⟩, 0, .loading⟩
      ∧ (s .empty).store.window 8 = ⟨some ⟨0, 4, false⟩, 0, .empty⟩
      ∧ State.reset.store.window 8 = ⟨none, 0, .empty⟩ :=
  ⟨⟨⟨rfl, rfl⟩, ⟨rfl, rfl⟩, rfl, rfl⟩, by decide +kernel⟩
-- counts 1, the window's length and one more; the program's stream; a lane that is not IDLE
theorem witness_WindowRequestsFollowTheirChecks_load :
    let r (stream count : String) := req .load [("W", "1"), ("STREAM", stream), ("COUNT", count)]
    let s := windowAt 1 0 4 .empty State.reset
    let used := s.onLane fun l => { l with st := .running }
    let same := s.onForce fun f => { f with stream := 3 }
    (Routed (routed .a (r "3" "1") s) .a (r "3" "1") ∧ Routed (routed .a (r "3" "4") s) .a (r "3" "4")
        ∧ Routed (routed .a (r "3" "5") s) .a (r "3" "5") ∧ Routed (routed .a (r "3" "4") same) .a (r "3" "4")
        ∧ Routed (routed .a (r "3" "4") used) .a (r "3" "4"))
      ∧ (r "3" "1").loadKeys = some (1, 3, 1) ∧ (r "3" "4").loadKeys = some (1, 3, 4)
      ∧ (r "3" "5").loadKeys = some (1, 3, 5) ∧ s.force.stream = 0 ∧ same.force.stream = 3
      ∧ s.lane.st = .idle ∧ used.lane.st ≠ .idle :=
  ⟨⟨⟨rfl, rfl⟩, ⟨rfl, rfl⟩, ⟨rfl, rfl⟩, ⟨rfl, rfl⟩, rfl, rfl⟩, by decide +kernel⟩

-- watches 1 and 4; an ISN still to come, and the ISN of the head
theorem witness_WatchAndUnwatchSetTheTable :
    let come := req .watch [("W", "4"), ("ISN", "1452")]
    let gone := req .watch [("W", "1"), ("ISN", "1451")]
    let un := req .unwatch [("W", "4")]
    let s := marking []
    (Routed (routed .a come s) .a come ∧ Routed (routed .a gone s) .a gone ∧ Routed (routed .a un s) .a un)
      ∧ CutEngineFree s ∧ s.cuts.watches.length = 4 ∧ s.cuts.head = 1451
      ∧ come.onlyKeys ["W"] = false ∧ come.watchDef 25 = some (4, ⟨.isn 1452, .ingest, .notify, false, false, false, 0, 1⟩)
      ∧ gone.onlyKeys ["W"] = false ∧ gone.watchDef 25 = some (1, ⟨.isn 1451, .ingest, .notify, false, false, false, 0, 1⟩)
      ∧ un.keys = [("W", "4")] ∧ numberIn 1 4 "4".toList = some 4 :=
  ⟨⟨⟨rfl, rfl⟩, ⟨rfl, rfl⟩, rfl, rfl⟩, ⟨rfl, rfl, rfl⟩, by decide +kernel⟩

/-- Watch 1 looks for ISN 1452. -/
def watching (act : WatchAction) (s : State) : State :=
  s.onCuts fun e => { e with watches := [some ⟨.isn 1452, .ingest, act, false, false, false, 0, 1⟩, none, none, none] }

-- each action's hit, at an engine that is free, busy, full or in BYPASS; a spent watch; and a record that does not match
theorem witness_WatchAndUnwatchSetTheTable_hits :
    let w (act : WatchAction) : Watch := ⟨.isn 1452, .ingest, act, false, false, false, 0, 1⟩
    let s := watching .markOut (marking [open12])
    let full := watching (.markIn .drop false) ((marking []).onCuts fun e =>
      { e with cuts := (List.range 32).map fun i => { open12 with id := i + 1 } })
    let bypass := (watching .dump (marking [])).onPace fun p => { p with mode := .bypass, st := .idle }
    (s.cuts.watches[0]? = some (some (w .markOut)) ∧ s.cuts.awaiting = none ∧ s.cuts.queue = []
        ∧ (∀ c ∈ s.cuts.cuts, c.station ≠ 0 ∨ c.last ≠ none ∨ c.pend = some .revoke))
      ∧ (watchTested (w .dump) 1452 none).matchedLast = true ∧ (w .dump).every = false
      ∧ (watchTested (w .dump) 1453 none).matchedLast = false ∧ (watchTested (w .dump) 1452 none).spent = true
      ∧ full.pace.mode = .engaged ∧ 32 ≤ full.cuts.cuts.length ∧ bypass.pace.mode = .bypass
      ∧ (watching .notify (marking [])).cuts.cuts.length < 32 := by decide +kernel
-- a MARK-OUT hit that finds the automation station's cut, with its OUT to come and created; a DUMP hit at a full list
theorem witness_WatchAndUnwatchSetTheTable_found :
    let w (act : WatchAction) : Watch := ⟨.isn 1452, .ingest, act, false, false, false, 0, 1⟩
    let auto : Cut := { open12 with station := 0 }
    let s := watching .markOut (marking [auto, open12])
    let full := watching .dump ((marking []).onCuts fun e =>
      { e with cuts := (List.range 32).map fun i => { open12 with id := i + 1 } })
    (s.cuts.watches[0]? = some (some (w .markOut)) ∧ s.cuts.awaiting = none ∧ s.cuts.queue = []
        ∧ (s.cuts.cuts.filter fun c => openEnded c && decide (c.station = 0)).getLast? = some auto
        ∧ s.force.postRoll = 4 ∧ isAfter (1452 + 4) s.cuts.head = true
        ∧ isAfter (1452 + 4) (s.onCuts fun e => { e with head := 1456 }).cuts.head = false)
      ∧ full.cuts.watches[0]? = some (some (w .dump)) ∧ full.pace.mode = .engaged ∧ 32 ≤ full.cuts.cuts.length
      ∧ full.cuts.awaiting = none ∧ full.cuts.queue = [] := by decide +kernel
-- a closing mark that tests a watch; the answer to a hit's cut, with none, three and all seven late; and to an unlisted DUMP
theorem witness_WatchAndUnwatchSetTheTable_order :
    let s := marked committed2
    let h : Hit := ⟨1, 1452, .ingest, .dump, .isn 1452, true⟩
    let a : Awaiting := ⟨.hit h, .entry 14, 1440, 7, false, false⟩
    let answers (what : AwaitKind) (late : Nat) :=
      (answered ⟨late, some 1443⟩ false cut14).onCuts fun e => { e with awaiting := some { a with what := what } }
    let t := answers (.entry 14) 0
    let dump : AwaitKind := .unlisted ⟨1440, 1446⟩ none 0
    (LineOk s ∧ s.phase = .running ∧ s.timer.markPending = true ∧ s.line.count < 4096)
      ∧ t.phase = .running ∧ t.cuts.awaiting = some a ∧ t.cuts.cut 14 = some cut14
      ∧ t.cuts.answer = some ⟨0, some 1443⟩ ∧ t.cuts.queue = [] ∧ cut14.last.isNone = false
      ∧ (answers (.entry 14) 3).cuts.answer = some ⟨3, some 1443⟩ ∧ (answers (.entry 14) 7).cuts.answer = some ⟨7, some 1443⟩
      ∧ ((answers dump 3).cuts.awaiting.map (·.what)) = some dump ∧ through 1440 1446 = 7
      ∧ (answers dump 7).cuts.awaiting.map (fun x => (x.openEnded, x.count)) = some (false, 7) :=
  ⟨⟨committed2_lineOk, by decide +kernel⟩, by decide +kernel⟩

theorem witness_ReportsOnlyAnswer :
    let asks (w : ReqWord) (keys : List (String × String)) : Prop := Routed (routed .a (req w keys) (marking [])) .a (req w keys)
    (asks .window [("W", "8")] ∧ asks .watch [("W", "4")] ∧ asks .param [("NAME", "C")] ∧ asks .param [])
      ∧ CutEngineFree (marking []) ∧ numberIn 1 8 "8".toList = some 8 ∧ numberIn 1 4 "4".toList = some 4
      ∧ paramKeys.lookup "C" = some .fade :=
  ⟨⟨⟨rfl, rfl⟩, ⟨rfl, rfl⟩, ⟨rfl, rfl⟩, rfl, rfl⟩, ⟨rfl, rfl, rfl⟩, by decide +kernel⟩

/-- Stations 1 and 2 are in force; where a table waits, station 1 has another level there, 2 is gone and 3 is new. -/
def tables : State := State.reset.onPorts fun ps =>
  { ps with
    table := [Station.builtIn, { Station.builtIn with station := 2, current := some .b }]
    waiting := some [{ Station.builtIn with level := 2 }, { Station.builtIn with station := 3 }] }

-- an entry that differs, a removed one, a new one and none; a valid slot and an invalid one; and forms that are BAD
theorem witness_ReportsOnlyAnswer_param :
    let asks (keys : List (String × String)) : Prop := Routed (routed .a (req .param keys) tables) .a (req .param keys)
    (asks [("STATION", "1")] ∧ asks [("STATION", "2")] ∧ asks [("STATION", "3")] ∧ asks [("STATION", "99")]
        ∧ asks [("SLOT", "0")] ∧ asks [("SLOT", "4")] ∧ asks [("SLOT", "5")] ∧ asks [("NAME", "C"), ("SLOT", "1")])
      ∧ numberIn 1 99 "99".toList = some 99 ∧ numberIn 0 4 "0".toList = some 0 ∧ numberIn 0 4 "4".toList = some 4
      ∧ numberIn 0 4 "5".toList = none :=
  ⟨⟨⟨rfl, rfl⟩, ⟨rfl, rfl⟩, ⟨rfl, rfl⟩, ⟨rfl, rfl⟩, ⟨rfl, rfl⟩, ⟨rfl, rfl⟩, ⟨rfl, rfl⟩, rfl, rfl⟩, by decide +kernel⟩

theorem witness_CountersAreReadAndCleared :
    let list := req .counters [("LIST", "INGEST")]
    let both := req .counters [("LIST", "PORTS"), ("CLEAR", "YES")]
    let clear := req .counters [("CLEAR", "YES")]
    let s (r : Request) := routed .a r (busy (countFault State.reset))
    Routed (s list) .a list ∧ Routed (s both) .a both ∧ Routed (s clear) .a clear
      ∧ ((s both).ports.get .a).sending ≠ none ∧ (s both).counters.faults = 1 :=
  ⟨⟨rfl, rfl⟩, ⟨rfl, rfl⟩, ⟨rfl, rfl⟩, by decide, by decide +kernel⟩

-- a character after 0 and after 240 others and after a carriage return; a line that ends empty and one that does not;
-- datagrams with and without the two characters at their end; a line that finds 7 and 8 waiting
theorem witness_CharactersAndDatagramsMakeLines :
    let holds (n : Nat) (cr : Bool) : State :=
      State.reset.onPort .b fun x => { x with line := ⟨List.replicate n 65, false, false, cr⟩ }
    let waits (n : Nat) : State := (busy (routed .a (req .status []) State.reset)).onPort .a fun x =>
      { x with queue := List.replicate n ⟨[65], false, false, none⟩ }
    (State.reset.phase = .running ∧ ((holds 239 false).ports.get .b).line.chars.length = 239
        ∧ ((holds 240 false).ports.get .b).line.chars.length = 240 ∧ ((holds 0 true).ports.get .b).line.cr = true)
      ∧ ([65, 13, 10] : Bytes) = [65] ++ [13, 10]
      ∧ ((waits 7).ports.get .a).queue.length = 7 ∧ ((waits 8).ports.get .a).queue.length = 8
      ∧ ((waits 7).ports.get .a).current ≠ none
      ∧ (QueuedLine.request ⟨"CUTS ST=2 TAG=3".toList.map fun c => BitVec.ofNat 8 c.toNat, false, false, none⟩).map
          (fun r => (r.word, r.station)) = some (.cuts, 2)
      ∧ (State.reset.ports.table.any fun st => st.station = 2) = false := by decide +kernel

theorem witness_TransmittersSendInTurn :
    let s := busy State.reset
    let resets := State.reset.onPort .a fun x => { x with sending := some ⟨"OK TAG=1", [], .portReset⟩, drops := 3 }
    (s.phase ≠ .off ∧ (s.ports.get .a).sending = some ⟨"OK TAG=1", [], .nothing⟩)
      ∧ (resets.ports.get .a).sending = some ⟨"OK TAG=1", [], .portReset⟩
      ∧ Routed (routed .a (req .portReset []) s) .a (req .portReset [])
      ∧ Routed (routed .a (req .restart []) s) .a (req .restart []) :=
  ⟨by decide, rfl, ⟨rfl, rfl⟩, rfl, rfl⟩

theorem witness_NoticesReachTheirAudience : onA.counters.dropped ≤ 4294967295 := by decide

-- one value as given and one clamped; a key refused
theorem witness_SetStoresTheValues :
    let r := req .set [("PREFETCH", "9"), ("AUTOENGAGE", "YES")]
    let bad := req .set [("C", "48")]
    (Routed (routed .a r State.reset) .a r ∧ r.has "STATION" = false
        ∧ Routed (routed .a bad State.reset) .a bad ∧ bad.has "STATION" = false)
      ∧ paramKeys.lookup "PREFETCH" = some .prefetch ∧ ParamKey.prefetch.read "9" = some 9
      ∧ ParamKey.prefetch.accept 9 = some 3 ∧ paramKeys.lookup "AUTOENGAGE" = some .autoEngage
      ∧ ParamKey.autoEngage.read "YES" = some 1 ∧ ParamKey.autoEngage.accept 1 = some 1
      ∧ paramKeys.lookup "C" = some .fade ∧ ParamKey.fade.read "48" = some 48 ∧ ParamKey.fade.accept 48 = none :=
  ⟨⟨⟨rfl, rfl⟩, by decide +kernel, ⟨rfl, rfl⟩, by decide +kernel⟩, by decide +kernel⟩
-- one key: a number at the end of its range and one past it, no number, a mask, a flag and a key that is none
theorem witness_SetStoresTheValues_oneKey :
    let asks (key value : String) : Prop :=
      let r := req .set [(key, value)]
      Routed (routed .a r State.reset) .a r ∧ r.word = .set ∧ r.keys = [(key, value)]
    (asks "OPENLIMIT" "3600" ∧ asks "OPENLIMIT" "3601" ∧ asks "T" "" ∧ asks "SPEECH" "YYNNNNNNNNNNNNNN"
        ∧ asks "AUTOENGAGE" "NO" ∧ asks "CUT" "1")
      ∧ IsNumber "3600" 3600 ∧ IsNumber "3601" 3601 ∧ ¬ 1 ≤ "".toList.length ∧ "YYNNNNNNNNNNNNNN".toList.length = 16 :=
  ⟨⟨⟨⟨rfl, rfl⟩, rfl, rfl⟩, ⟨⟨rfl, rfl⟩, rfl, rfl⟩, ⟨⟨rfl, rfl⟩, rfl, rfl⟩, ⟨⟨rfl, rfl⟩, rfl, rfl⟩, ⟨⟨rfl, rfl⟩, rfl, rfl⟩,
    ⟨rfl, rfl⟩, rfl, rfl⟩, by simp [IsNumber]⟩
-- R195, R135: OPENLIMIT is clamped to 25, and a payload size that is no multiple of 64 is BAD
theorem test_set_bounds :
    (reply "SET ST=1 TAG=7 OPENLIMIT=24" (.set .a) State.reset, reply "SET ST=1 TAG=7 PAYLOAD=1025" (.set .a) State.reset) =
      (some "CLAMPED TAG=7 OPENLIMIT=25", some "BAD TAG=7") := by decide +kernel

-- a held entry, a new one beside 7 and 8 held, and a removal
theorem witness_SetStationChangesTheWaitingTable :
    let r := req .set [("STATION", "1"), ("LEVEL", "5")]
    let new := req .set [("STATION", "99"), ("PORT", "B"), ("LEVEL", "5"), ("PERMS", "CUT"), ("GROUPS", "NONE")]
    let gone := req .set [("STATION", "1"), ("REMOVE", "YES")]
    let holds (n : Nat) : State := State.reset.onPorts fun ps =>
      { ps with table := (List.range n).map fun i => { Station.builtIn with station := i + 1 } }
    (Routed (routed .a r State.reset) .a r ∧ Routed (routed .a new (holds 7)) .a new
        ∧ Routed (routed .a new (holds 8)) .a new ∧ Routed (routed .a gone State.reset) .a gone)
      ∧ r.num "STATION" 1 99 = some 1 ∧ new.num "STATION" 1 99 = some 99
      ∧ r.onlyKeys ["STATION", "PORT", "LEVEL", "PERMS", "GROUPS"] = true
      ∧ r.stationFields.map (·.level) = some (some 5)
      ∧ new.stationFields = some ⟨some (.only .b), some 5, some ⟨true, false, false, false⟩,
          some ⟨false, false, false, false, false, false⟩⟩
      ∧ (holds 7).ports.table.length = 7 ∧ (holds 8).ports.table.length = 8
      ∧ gone.onlyKeys ["STATION", "REMOVE"] = true ∧ gone.key "REMOVE" = some "YES" :=
  ⟨⟨⟨rfl, rfl⟩, ⟨rfl, rfl⟩, ⟨rfl, rfl⟩, rfl, rfl⟩, by decide +kernel⟩

/-- A slot as a SAVE leaves it, whose checksum verifies. -/
def savedSlot (n gen : Nat) (body : List ProfileRecord) : ProfileSlot := ⟨n, gen, bodyChecksum body, false, body⟩

/-- A part that holds a valid profile in slot 2, with one station and one window. -/
def profiled : State := State.reset.onSettings fun x =>
  { x with slots := x.slots.set 2 (savedSlot 2 5 [.param .fade 128, .station Station.builtIn, .window 8 ⟨0, 4, true⟩]) }

theorem witness_SaveWritesItsSlot :
    let r (v : String) := req .save [("SLOT", v)]
    let saving := State.reset.onSettings fun x => { x with save := some ⟨4, 1, 0, []⟩ }
    let full := profiled.onSettings fun x => { x with slots := x.slots.set 3 (savedSlot 3 4294967295 []) }
    (Routed (routed .a (r "0") profiled) .a (r "0") ∧ Routed (routed .a (r "4") profiled) .a (r "4")
        ∧ Routed (routed .a (r "4") saving) .a (r "4") ∧ Routed (routed .a (r "4") full) .a (r "4"))
      ∧ numberIn 0 4 "0".toList = some 0 ∧ numberIn 0 4 "4".toList = some 4
      ∧ profiled.settings.save = none ∧ profiled.settings.topGeneration + 1 ≤ 4294967295
      ∧ 4294967295 < full.settings.topGeneration + 1
      ∧ saving.phase = .running ∧ saving.settings.save = some ⟨4, 1, 0, []⟩ ∧ 4 < saving.settings.slots.length
      ∧ (after (.saveComplete true) saving).settings.valid 4 = true
      ∧ ((savedSlot 2 5 [.param .fade 128]).verifies && !({ savedSlot 2 5 [.param .fade 128] with checksum := 1 }).verifies) :=
  ⟨⟨⟨rfl, rfl⟩, ⟨rfl, rfl⟩, ⟨rfl, rfl⟩, rfl, rfl⟩, by decide +kernel⟩

-- a window that takes its definition; one that overlaps it and is left undefined; one that is LOADING and keeps its own
theorem witness_ProfileIsLoadedWhole :
    let r (v : String) := req .profile [("SLOT", v)]
    let s := windowAt 3 100 4 .loading (profiled.onSettings fun x => { x with slots := x.slots.set 1 (savedSlot 1 5
      [.window 1 ⟨0, 4, true⟩, .window 2 ⟨3, 4, false⟩, .window 3 ⟨50, 4, false⟩]) })
    (Routed (routed .a (r "2") profiled) .a (r "2") ∧ Routed (routed .a (r "4") profiled) .a (r "4")
        ∧ Routed (routed .a (r "1") s) .a (r "1"))
      ∧ numberIn 0 4 "2".toList = some 2 ∧ profiled.settings.save = none ∧ profiled.settings.valid 2 = true
      ∧ profiled.settings.valid 4 = false ∧ profiled.store.windows.length = 8
      ∧ windowIn (profiled.settings.slot 2).body 8 = some ⟨0, 4, true⟩ ∧ (profiled.store.window 8).defn = none
      ∧ s.settings.valid 1 = true ∧ s.store.windows.length = 8 ∧ (s.store.window 3).st = .loading
      ∧ (after (.profile .a) (routed .a (r "1") s)).store.windows.map (·.defn) =
          [some ⟨0, 4, true⟩, none, some ⟨100, 4, false⟩, none, none, none, none, none] :=
  ⟨⟨⟨rfl, rfl⟩, ⟨rfl, rfl⟩, rfl, rfl⟩, by decide +kernel⟩

theorem witness_ParamsOk : ParamsOk State.reset := by
  constructor <;> simp [State.reset, Params.admitted, Params.defaults]
theorem witness_WindowsOk : WindowsOk State.reset := by
  refine ⟨rfl, by simp [State.reset, Store.init, WindowEntry.undefinedEntry],
    by simp [State.reset, Store.init, WindowEntry.undefinedEntry]⟩
theorem witness_ProfilesReadBackWhatWasSaved :
    ParamsOk State.reset ∧ WindowsOk State.reset ∧ ((State.reset.ports.waiting.getD State.reset.ports.table).map (·.station)).Nodup
      ∧ (State.reset.ports.waiting.getD State.reset.ports.table).length ≤ 8 :=
  ⟨witness_ParamsOk, witness_WindowsOk, by decide +kernel⟩

theorem witness_PowerOnStartsFromAProfile :
    profiled.settings.valid 2 = true
      ∧ (∀ m, m < 5 → profiled.settings.valid m = true → (profiled.settings.slot m).gen ≤ 5 ∧ m = 2)
      ∧ (∀ m, m < 5 → State.reset.settings.valid m = false) := by decide +kernel

theorem witness_RestartKeepsMemoryAndSettings :
    let s := onA.onPort .a fun x => { x with sending := some ⟨"OK TAG=1", [], .restart 1⟩ }
    State.reset.phase = .running
      ∧ (s.phase = .running ∧ (s.ports.get .a).sending = some ⟨"OK TAG=1", [], .restart 1⟩)
      ∧ (after .resetLineAsserted State.reset).phase = .held false
      ∧ (let held := after .powerOn (State.reset.setResetLine true)
        held.phase = .held true ∧ held.settings.cause = .powerOn ∧ held.settings.start = none)
      ∧ (let blank := onA.setPhase (.held true)
        blank.settings.start = none ∧ blank.settings.cause = .powerOn ∧ blank.ports.audience .a .setup ≠ []
          ∧ (blank.ports.get .a).sending = none ∧ (busy blank).ports.audience .a .setup ≠ []) := by decide +kernel

theorem witness_runs : ∃ t, step State.reset = .next t := ⟨_, rfl⟩
theorem witness_MemoryKeepsItsForm : MemoryOk State.reset ∧ ∃ t, step State.reset = .next t := ⟨rfl, _, rfl⟩
theorem witness_PagesStayAccountedFor :
    PagesOk State.reset ∧ Routed (routed .a (req .status []) State.reset) .a (req .status []) := by
  refine ⟨?_, rfl, rfl⟩
  simp [PagesOk, State.reset, HoldLine.init]
theorem witness_LineStaysInOrder : LineOk State.reset ∧ ∃ t, step State.reset = .next t := by
  refine ⟨⟨⟨0, rfl⟩, by decide, by decide +kernel, ?_, by decide +kernel⟩, _, rfl⟩
  simp [State.reset, HoldLine.init]
-- two committed records behind an idle step
theorem witness_CommittedRecordsKeepTheirRendering :
    LineOk committed2 ∧ (∃ t, step committed2 = .next t ∧ t.line = committed2.line)
      ∧ { kept 0 with committed := true, life := .committed } ∈ committed2.line.records :=
  ⟨committed2_lineOk, ⟨_, rfl, rfl⟩, by simp [committed2, State.onLine, State.onCuts]⟩
theorem witness_WindowsAndParametersStayInRange :
    WindowsOk State.reset ∧ ParamsOk State.reset ∧ ∃ t, step State.reset = .next t :=
  ⟨witness_WindowsOk, witness_ParamsOk, _, rfl⟩
theorem empty_sound (length : Nat) : SlotSound .empty length :=
  ⟨fun k => by cases k <;> simp [StagingSlot.empty, StagingSlot.kindBuf, KindBuf.empty],
    fun n h => by simp [StagingSlot.empty, KindBuf.empty] at h⟩
theorem reset_slotsOk : SlotsOk State.reset := by
  intro x h
  have hx : x = .empty := by
    revert h; revert x; decide +kernel
  exact hx ▸ empty_sound _
theorem witness_QueuesAndPacingStayInBounds :
    PortsOk State.reset ∧ TransmittersOk State.reset ∧ CutListOk State.reset ∧ OneAccess State.reset ∧ PaceOk State.reset
      ∧ ArrivalsOk State.reset ∧ PlayOk State.reset ∧ SendQueueOk State.reset ∧ SlotsOk State.reset
      ∧ ∃ t, step State.reset = .next t := by
  refine ⟨?_, ?_, ?_, .inl rfl, ?_, reset_arrivalsOk, reset_playOk, Nat.zero_le 2, reset_slotsOk, _, rfl⟩
  · intro p; cases p <;> exact ⟨by decide, by decide⟩
  · intro p; cases p <;> exact fun _ => ⟨rfl, rfl⟩
  · refine ⟨?_, ?_, ?_, ?_, ?_, ?_⟩ <;> decide +kernel
  · exact ⟨by simp [State.reset, Pacing.init], by decide, fun _ => rfl⟩

end Sys2Proof.Tests
end

section
/-! The header checksum of R17: the bytes and words of an output header, the sum over them, and the check that Media In
makes of it. -/

namespace Sys2Proof.Machine

/-! ### Bytes and words -/

/-- A 16-bit field is one word. -/
theorem wordsOf_be16 {n : Nat} (h : n < 65536) : wordsOf (be16 n) = [n] := by
  simp only [be16, wordsOf, BitVec.toNat_ofNat, List.cons.injEq, and_true]
  omega

/-- A 16-bit field reads back as its number. -/
theorem beValue_be16 {n : Nat} (h : n < 65536) : beValue (be16 n) = n := by
  simp only [be16, beValue, List.foldl_cons, List.foldl_nil, BitVec.toNat_ofNat]
  omega

theorem wordsOf_lt (bs : Bytes) : ∀ w ∈ wordsOf bs, w < 65536 := by
  induction bs using wordsOf.induct with
  | case1 a b rest ih =>
    rw [wordsOf, List.forall_mem_cons]
    exact ⟨by omega, ih⟩
  | case2 bs h => simp [wordsOf]

/-- The words of bytes behind an even number of bytes begin on a word's edge. -/
theorem wordsOf_append {xs : Bytes} (ys : Bytes) (h : xs.length % 2 = 0) :
    wordsOf (xs ++ ys) = wordsOf xs ++ wordsOf ys := by
  induction xs using wordsOf.induct with
  | case1 a b rest ih =>
    have hrest : rest.length % 2 = 0 := by simp only [List.length_cons] at h; omega
    simp [wordsOf, ih hrest]
  | case2 xs hshort =>
    match xs, hshort, h with
    | [], _, _ => rfl
    | [_], _, h => simp at h
    | a :: b :: rest, hshort, _ => exact absurd rfl (hshort a b rest)

/-- The number of the first two bytes is the first word. -/
theorem beValue_take_two_mem {bs : Bytes} (h : 2 ≤ bs.length) : beValue (bs.take 2) ∈ wordsOf bs := by
  match bs, h with
  | a :: b :: rest, _ => simp [wordsOf, beValue]

/-! ### The sum -/

/-- The carry out of bit 15 comes back into bit 0, and no second carry arises (R17). -/
theorem addCarry_eq {a w : Nat} (ha : a < 65536) (hw : w < 65536) :
    addCarry a w = (a + w) % 65536 + (a + w) / 65536 := by
  unfold addCarry
  split <;> omega

theorem addCarry_zero {a : Nat} (ha : a < 65536) : addCarry a 0 = a := by
  unfold addCarry
  split <;> omega

theorem addCarry_eq_zero_iff {a w : Nat} : addCarry a w = 0 ↔ a = 0 ∧ w = 0 := by
  unfold addCarry
  split <;> omega

theorem foldl_addCarry_eq_zero_iff {ws : List Nat} {a : Nat} :
    ws.foldl addCarry a = 0 ↔ a = 0 ∧ ∀ w ∈ ws, w = 0 := by
  induction ws generalizing a with
  | nil => simp
  | cons w ws ih => rw [List.foldl_cons, ih, addCarry_eq_zero_iff, List.forall_mem_cons, and_assoc]

/-- End-around carry never folds a sum back to 0: only zero words sum to it. -/
theorem onesSum_eq_zero_iff {ws : List Nat} : onesSum ws = 0 ↔ ∀ w ∈ ws, w = 0 := by
  simp [onesSum, foldl_addCarry_eq_zero_iff]

/-- A last word of zero leaves the sum as it is. -/
theorem onesSum_append_zero {ws : List Nat} (h : ∀ w ∈ ws, w < 65536) : onesSum (ws ++ [0]) = onesSum ws := by
  have := addCarry_zero (onesSum_lt h)
  simpa [onesSum] using this

theorem checksumOf_lt (header : Bytes) : checksumOf header < 65536 := by
  unfold checksumOf
  omega

/-! ### The header that the Output Packetizer writes (R145) -/

section
variable (o : OutSlice) (kind : Kind) (seq : BitVec 16) (offset length total : Nat)

theorem headerFields_length : (headerFields o kind seq offset length total).length = 28 := by
  have htc : (timecodeBytes o.slice.tc).length = 4 := by cases o.slice.tc <;> rfl
  simp [headerFields, be16, be32, htc]

theorem outputHeader_eq :
    outputHeader o kind seq offset length total =
      headerFields o kind seq offset length total ++ be16 (checksumOf (headerFields o kind seq offset length total)) :=
  rfl

theorem outputHeader_length : (outputHeader o kind seq offset length total).length = 30 := by
  rw [outputHeader_eq, List.length_append, headerFields_length]
  rfl

theorem outputHeader_take :
    (outputHeader o kind seq offset length total).take 28 = headerFields o kind seq offset length total :=
  List.take_left' (headerFields_length ..)

theorem outputHeader_drop :
    (outputHeader o kind seq offset length total).drop 28 =
      be16 (checksumOf (headerFields o kind seq offset length total)) :=
  List.drop_left' (headerFields_length ..)

/-- The fields fill whole words, so what follows them begins a word. -/
theorem wordsOf_headerFields_append (bs : Bytes) :
    wordsOf (headerFields o kind seq offset length total ++ bs) =
      wordsOf (headerFields o kind seq offset length total) ++ wordsOf bs :=
  wordsOf_append bs (by rw [headerFields_length])

/-- Bytes 28 and 29 hold the complement of the sum with the checksum word as zero (R17). -/
theorem outputHeader_checksum :
    beValue ((outputHeader o kind seq offset length total).drop 28) =
      65535 - onesSum (wordsOf ((outputHeader o kind seq offset length total).take 28 ++ [0, 0])) := by
  have hzero : wordsOf [0, 0] = [0] := rfl
  rw [outputHeader_drop, outputHeader_take, beValue_be16 (checksumOf_lt _), wordsOf_headerFields_append, hzero,
    onesSum_append_zero (wordsOf_lt _), checksumOf]

/-- A written header verifies (R17). -/
theorem outputHeader_sum : onesSum (wordsOf (outputHeader o kind seq offset length total)) = 65535 := by
  rw [outputHeader_eq, wordsOf_headerFields_append, wordsOf_be16 (checksumOf_lt _)]
  exact onesSum_complement (wordsOf_lt _)

end

/-- A packet that is sent begins with an output header. -/
theorem OutSlice.packet_header {o : OutSlice} {seq : BitVec 16} {k : Nat} {packet : Bytes}
    (h : o.packet seq k = some packet) :
    ∃ kind offset length total, packet.take 30 = outputHeader o kind seq offset length total := by
  obtain ⟨⟨kind, offset, total, payload⟩, -, rfl⟩ := Option.map_eq_some_iff.mp h
  exact ⟨kind, offset, payload.length, total, List.take_left' (outputHeader_length ..)⟩

/-! ### The check on Media In (R14) -/

/-- Of the packets with the format mark, those whose header does not verify are the checksum failures. -/
theorem checkHeader_eq_checksum_iff {packet : Bytes} (hlen : 30 ≤ packet.length)
    (hmark : beValue (packet.take 2) = 0xD516) :
    checkHeader packet = .checksum ↔ onesSum (wordsOf (packet.take 30)) ≠ 0xFFFF := by
  have hmarked : ¬ (packet.length < 30 || beValue (fieldBytes packet 0 2) ≠ 0xD516) = true := by
    simp [fieldBytes, hmark, hlen]
  unfold checkHeader
  rw [if_neg hmarked]
  by_cases hsum : onesSum (wordsOf (packet.take 30)) = 0xFFFF
  · have hverifies : ¬ (!checksumVerifies (packet.take 30)) = true := by simp [checksumVerifies, hsum]
    rw [if_neg hverifies]
    -- the later checks, of the kind and of the payload length, make a packet malformed or let it pass
    dsimp only
    split
    · simp [hsum]
    · split <;> simp [hsum]
  · simp [checksumVerifies, hsum]

/-- The format mark is not zero, so neither is the sum of a header that bears it (R17). -/
theorem onesSum_header_ne_zero {packet : Bytes} (hlen : 30 ≤ packet.length)
    (hmark : beValue (packet.take 2) = 0xD516) : onesSum (wordsOf (packet.take 30)) ≠ 0 := by
  intro hzero
  have hfirst : beValue ((packet.take 30).take 2) ∈ wordsOf (packet.take 30) :=
    beValue_take_two_mem (by rw [List.length_take]; omega)
  rw [List.take_take, Nat.min_eq_left (by omega), hmark] at hfirst
  exact absurd (onesSum_eq_zero_iff.mp hzero _ hfirst) (by decide)

/-- Settles O9: the complement behind the words makes the sum 0xFFFF, and end-around carry keeps a sum that has left 0
away from it. -/
theorem headerChecksumFollowsItsRule : Obligations.HeaderChecksumFollowsItsRule := by
  refine ⟨fun a w ha hw => ⟨addCarry_lt ha hw, addCarry_eq ha hw⟩, ?written, ?sent, ?received, ?full, ?manual⟩
  case written =>
    intro o kind seq offset length total
    exact ⟨outputHeader_length .., outputHeader_checksum .., outputHeader_sum ..⟩
  case sent =>
    intro o next k packet h
    obtain ⟨kind, offset, length, total, hheader⟩ := OutSlice.packet_header h
    rw [hheader]
    exact outputHeader_sum ..
  case received =>
    intro packet hlen hmark
    exact ⟨checkHeader_eq_checksum_iff hlen hmark, onesSum_header_ne_zero hlen hmark⟩
  case full =>
    intro header hsum
    rw [checksumOf, hsum]
  case manual => decide

end Sys2Proof.Machine
end

section
/-! What a command can do to the Hold Line: the changes that the line makes of itself, a record created at its back, and a
reset. Every statement about the line as a whole then needs one case for each change, and not one for each command. -/

namespace Sys2Proof.Machine

set_option Elab.async false

/-! ### The changes of the line -/

/-- One change that the Hold Line makes of the records it holds. -/
inductive LineMove (l : HoldLine) : HoldLine → Prop
  /-- the error of a record has been noticed (R190) -/
  | noticed (i : Isn) : LineMove l (l.modify i fun r => { r with noticed := true })
  /-- a record has begun with a faulted slot (R57) -/
  | damaged (i : Isn) : LineMove l (l.modify i fun r => { r with cond := .damaged })
  /-- a disposition update has been taken (R54) -/
  | update (u : Update) : LineMove l (l.update u)
  /-- a shed instruction has been taken (R56) -/
  | shed (isns : List Isn) : LineMove l (l.shed isns)
  /-- an ingest write has ended (R45) -/
  | written (page : Nat) (done : Bool) : LineMove l (l.writeCompleted page done)
  /-- a period-start report has been taken (R50) -/
  | report (rep : Report) : LineMove l (l.report rep)

/-- Any number of such changes, one after the other. -/
abbrev LineMoves : HoldLine → HoldLine → Prop := Relation.ReflTransGen LineMove

/-- The line with a record created at its back; a page that the record holds has left the head of the pool (R33, R43). -/
def HoldLine.create (l : HoldLine) (r : Rec) : HoldLine :=
  { l with
    records := l.records ++ [r]
    nextIsn := l.nextIsn + 1
    freePool := if r.page.isSome then l.freePool.drop 1 else l.freePool }

/-- What one command can do to the line. -/
inductive LineStep (l : HoldLine) : HoldLine → Prop
  | moves {l' : HoldLine} (h : LineMoves l l') : LineStep l l'
  | created (r : Rec) (h : r.page = none ∨ r.page = l.freePool.head?) : LineStep l (l.create r)
  | reset : LineStep l .init

/-! ### What leaves the line alone -/

theorem Agrees.line_eq {T : List Block} {s t : State} (h : Agrees T s t)
    (hT : T.contains .line = false := by decide) : t.line = s.line := h .line hT

theorem LineMoves.of_eq {l l' : HoldLine} (h : l' = l) : LineMoves l l' := h ▸ Relation.ReflTransGen.refl

theorem Agrees.lineMoves {T : List Block} {s t : State} (h : Agrees T s t)
    (hT : T.contains .line = false := by decide) : LineMoves s.line t.line := LineMoves.of_eq (h.line_eq hT)

theorem Agrees.lineStep {T : List Block} {s t : State} (h : Agrees T s t)
    (hT : T.contains .line = false := by decide) : LineStep s.line t.line := .moves (h.lineMoves hT)

theorem LineMoves.ite {l : HoldLine} {s t : State} {c : Prop} [Decidable c] (h : LineMoves l s.line)
    (g : LineMoves l t.line) : LineMoves l (if c then s else t).line := by
  split
  · exact h
  · exact g

/-- One change of the line, with what the state does besides. -/
theorem LineMove.lineMoves {s t : State} {l : HoldLine} {T : List Block} (f : HoldLine → HoldLine)
    (h : LineMove l (f s.line)) (g : Agrees T (s.onLine f) t) (hT : T.contains .line = false := by decide) :
    LineMoves l t.line :=
  .tail (.refl) ((g.line_eq hT).symm ▸ h)

variable (s : State)

/-! ### The ends of store accesses -/

theorem raiseGoverned_lineMoves (i : Isn) (n : Notice) : LineMoves s.line (raiseGoverned i n s).line := by
  unfold raiseGoverned
  split
  · exact .refl
  · split
    · exact .refl
    · exact (LineMove.noticed i).lineMoves _ (raise_agrees _ n)

theorem noteEnd_lineMoves (job : StoreJob) (e : AccessEnd) : LineMoves s.line (noteEnd job e s).line := by
  unfold noteEnd
  split
  · exact .ite .refl (raiseGoverned_lineMoves s _ _)
  · exact .ite (raiseGoverned_lineMoves s _ _) .refl
  · split
    · exact raiseGoverned_lineMoves s _ _
    · exact .refl
  all_goals exact .refl

theorem ingestEnded_lineMoves (page slot : Nat) (done : Bool) :
    LineMoves s.line (ingestEnded page slot done s).line :=
  (LineMove.written page done).lineMoves (s := s.onIngest _) (fun l => l.writeCompleted page done) (replan_agrees _)

theorem handOn_lineMoves (a : Access) (e : AccessEnd) : LineMoves s.line (handOn a e s).line := by
  unfold handOn
  split
  · exact (fetchCompleted_agrees s _ _ _).lineMoves
  · exact ingestEnded_lineMoves s _ _ _
  · exact (coverCompleted_agrees s _ _).lineMoves
  · exact (loadWriteEnded_agrees s _ _).lineMoves

theorem endRequest_lineMoves (a : Access) (e : AccessEnd) : LineMoves s.line (endRequest a e s).line :=
  ((((((State.onStore_agrees s _).lineMoves.trans (landWrite_agrees _ _ _).lineMoves).trans
    (countEnd_agrees _ _).lineMoves).trans (noteEnd_lineMoves _ _ _)).trans (grantNext_agrees _).lineMoves)).trans
    (handOn_lineMoves _ _ _)

theorem accessReported_lineMoves (a : Access) (r : StoreReport) : LineMoves s.line (accessReported a r s).line := by
  unfold accessReported
  split
  · exact endRequest_lineMoves s _ _
  · exact endRequest_lineMoves s _ _
  · exact .ite (putBack_agrees s a).lineMoves (endRequest_lineMoves s _ _)

/-! ### Updates and sheds -/

theorem applyUpdate_lineMoves (u : Update) : LineMoves s.line (applyUpdate u s).line :=
  (LineMove.update u).lineMoves (fun l => l.update u)
    (((State.onCuts_agrees _ _).mono (T := [.cuts, .store, .play])).andThen (takeChanges_agrees _ _ _))

theorem applyShed_lineMoves (i : ShedInstruction) : LineMoves s.line (applyShed i s).line := by
  have shed : LineMoves s.line (s.line.shed i.isns) := .single (.shed i.isns)
  unfold applyShed
  simp only
  split
  · exact shed
  · refine .trans (b := s.line.shed i.isns) shed (LineMoves.of_eq ?_)
    exact ((takeChanges_agrees _ _ _).line_eq).trans (raise_agrees _ _).line_eq

theorem takeInstruction_lineMoves : LineMoves s.line (takeInstruction s).line := by
  unfold takeInstruction
  split
  · exact .refl
  · exact (State.onPace_agrees s _).lineMoves.trans (applyShed_lineMoves _ _)

/-! ### The period start -/

theorem noteWork_lineMoves (w : PeriodWork) : LineMoves s.line (noteWork w s).line := by
  unfold noteWork
  split
  · unfold whenBegun
    exact .ite (((countFreeze_agrees s).andThen (countLateFetch_agrees _)).lineMoves.trans
      (raiseGoverned_lineMoves _ _ _)) .refl
  · unfold whenBegun
    refine .ite ?_ .refl
    exact .ite (countFreeze_agrees s).lineMoves
      (((countFreeze_agrees s).lineMoves.trans (State.onPlay_agrees _ _).lineMoves).trans (raise_agrees _ _).lineMoves)
  all_goals exact .refl

theorem demandFault_lineMoves (w : PeriodWork) : LineMoves s.line (demandFault w s).line := by
  unfold demandFault
  split
  · exact .ite (.single (.damaged _)) .refl
  all_goals exact .refl

theorem sendReport_lineMoves (k : PeriodKind) (w : PeriodWork) : LineMoves s.line (sendReport k w s).line :=
  (((LineMove.report (reportOf s k w)).lineMoves (fun l => l.report _) (State.onPlay_agrees (s.onLine _) _)).trans
    (demandFault_lineMoves _ _)).trans
    ((Agrees.foldl commitCover_agrees _ _).lineMoves.trans (reportCommit_agrees _ _).lineMoves)

theorem playPeriod_lineMoves (k : PeriodKind) : LineMoves s.line (playPeriod k s).line :=
  (((((endEmission_agrees s).lineMoves.trans (noteWork_lineMoves _ _)).trans (sendReport_lineMoves _ _ _)).trans
    (emitSlice_agrees _ _ _ _ _ _).lineMoves).trans (beginsNow_agrees _ _).lineMoves).trans (replan_agrees _).lineMoves

theorem giveKind_lineMoves (k : PeriodKind) : LineMoves s.line (giveKind k s).line :=
  (State.onPace_agrees s _).lineMoves.trans (playPeriod_lineMoves _ k)

theorem rebuildPeriod_lineMoves : LineMoves s.line (rebuildPeriod s).line := by
  unfold rebuildPeriod
  split
  · exact .ite
      ((((paySlip_agrees s).lineMoves.trans (countRepeat_agrees _).lineMoves).trans
        (forcedNotice_agrees _ _ _ _).lineMoves).trans (giveKind_lineMoves _ _)) (giveKind_lineMoves s _)
  · exact giveKind_lineMoves s _

theorem trimPeriod_lineMoves : LineMoves s.line (trimPeriod s).line := by
  unfold trimPeriod
  split
  · exact .ite
      ((((paySlip_agrees s).lineMoves.trans (countSkip_agrees _).lineMoves).trans
        (forcedNotice_agrees _ _ _ _).lineMoves).trans (giveKind_lineMoves _ _)) (giveKind_lineMoves s _)
  · exact giveKind_lineMoves s _

theorem plainPeriod_lineMoves : LineMoves s.line (plainPeriod s).line := by
  unfold plainPeriod
  split
  · exact rebuildPeriod_lineMoves s
  · exact trimPeriod_lineMoves s
  all_goals exact giveKind_lineMoves s _

theorem engagedPeriod_lineMoves : LineMoves s.line (engagedPeriod s).line := by
  have h : LineMoves s.line (accumulate (transit s)).line :=
    (transit_agrees s).lineMoves.trans (accumulate_agrees _).lineMoves
  unfold engagedPeriod
  simp only
  split
  · split
    · exact h.trans (sendPeriodShed_agrees _ _ _).lineMoves
    · exact h.trans (giveKind_lineMoves _ _)
  · exact h.trans (plainPeriod_lineMoves _)

theorem pacePeriod_lineMoves : LineMoves s.line (pacePeriod s).line := by
  unfold pacePeriod
  split
  · exact engagedPeriod_lineMoves s
  · exact .ite (giveKind_lineMoves s _) (sendPeriodShed_agrees s _ _).lineMoves

theorem periodAnswered_lineMoves (k : Nat) : LineMoves s.line (periodAnswered k s).line := by
  unfold periodAnswered
  split
  · exact .refl
  · exact giveKind_lineMoves s _

theorem takeShedCount_lineMoves : LineMoves s.line (takeShedCount s).line := by
  unfold takeShedCount
  split
  · exact .refl
  · rename_i rest _
    have h := (State.onPace_agrees s fun p => { p with answers := rest }).lineMoves
    exact (LineMoves.ite (h.trans (periodAnswered_lineMoves _ _)) (h.trans (requestAnswered_agrees _ _).lineMoves)).trans
      (takePaceQueue_agrees _ _).lineMoves

theorem finishPeriod_lineMoves : ∀ (k : Nat) (s : State), LineMoves s.line (finishPeriod k s).line
  | 0, _ => .refl
  | k + 1, s => by
    unfold finishPeriod
    exact .ite .refl
      ((LineMoves.ite (takeInstruction_lineMoves s) (takeShedCount_lineMoves s)).trans (finishPeriod_lineMoves k _))

theorem referencePulse_lineMoves : LineMoves s.line (referencePulse s).line :=
  ((((finishPeriod_lineMoves _ s).trans (State.onPack_agrees _ _).lineMoves).trans
    (State.onPorts_agrees _ _).lineMoves).trans (valuesInForce_agrees _).lineMoves).trans (pacePeriod_lineMoves _)

/-- A pulse of the Timer, told or not: the work of the blocks is all that changes the line. -/
theorem pulsed_lineMoves {T : List Block} {t : State} (h : Agrees T s t)
    (hT : T.contains .line = false := by decide) : LineMoves s.line (referencePulse t).line :=
  (h.lineMoves hT).trans (referencePulse_lineMoves t)

theorem timerLock_agrees : Agrees [.timer] s (timerLock s) := State.onTimer_agrees s _

theorem timerPulse_agrees : Agrees [.timer] s (timerPulse s) := State.onTimer_agrees s _

theorem lineBack_lineMoves : LineMoves s.line (lineBack s).line :=
  .ite ((timerLock_agrees s).lineMoves.trans (raise_agrees _ _).lineMoves)
    (pulsed_lineMoves s ((((timerLock_agrees s).andThen (timerPulse_agrees _)).mono
      (T := [.timer, .ports, .counters])).andThen (raise_agrees _ _)))

theorem execLinePulse_lineMoves {t : State} (h : execLinePulse s = .next t) : LineMoves s.line t.line := by
  have pulse := pulsed_lineMoves s ((timerLock_agrees s).andThen (timerPulse_agrees _))
  obtain rfl := Host.Outcome.next.inj h
  exact .ite .refl (.ite (.ite .refl pulse) (.ite (lineBack_lineMoves s) pulse))

theorem execLossWatchExpiry_lineMoves {t : State} (h : execLossWatchExpiry s = .next t) :
    LineMoves s.line t.line := by
  obtain rfl := Host.Outcome.next.inj h
  refine .ite .refl (pulsed_lineMoves s (T := [.now, .timer, .ports, .counters]) ?_)
  exact (((State.at_agrees s _).mono.andThen (State.onTimer_agrees _ _)).andThen (timerPulse_agrees _)).andThen
    (raise_agrees _ _)

theorem execFreeRunExpiry_lineMoves {t : State} (h : execFreeRunExpiry s = .next t) : LineMoves s.line t.line := by
  obtain rfl := Host.Outcome.next.inj h
  refine .ite .refl (pulsed_lineMoves s (T := [.now, .timer]) ?_)
  exact ((State.at_agrees s _).mono.andThen (State.onTimer_agrees _ _)).andThen (timerPulse_agrees _)

/-! ### The closing mark -/

/-- The record that a closed slice leaves: at the back, with the page claimed for it. -/
theorem createRecord_line (c : Closed) (page : Option Nat) :
    ∃ r : Rec, r.page = page ∧ (createRecord c page s).line = s.line.create r := by
  unfold createRecord
  refine ⟨_, ?_, (closeCuts_agrees _ _ _).line_eq⟩
  rfl

theorem closeProgram_line :
    ∃ r : Rec, (r.page = none ∨ r.page = s.line.freePool.head?) ∧ (closeProgram s).line = s.line.create r := by
  unfold closeProgram
  extract_lets closed _ _ page c
  have before : (settleSlot c page (s.onIngest fun x => x.advance s.sliceLength)).line = s.line :=
    (((State.onIngest_agrees s _).mono (T := [.ingest, .store])).andThen (settleSlot_agrees _ _ _)).line_eq
  obtain ⟨r, hpage, hline⟩ :=
    createRecord_line (settleSlot c page (s.onIngest fun x => x.advance s.sliceLength)) c page
  refine ⟨r, ?_, Eq.trans ?_ (hline.trans (congrArg (·.create r) before))⟩
  · rw [hpage]
    exact (ite_eq_or_eq _ _ _).imp_right id
  · exact (((((countClosure_agrees _ c).mono (T := [.ingest, .cuts, .ports, .counters])).andThen
      (State.onIngest_agrees _ _)).andThen (raiseOpt_agrees _ _)).andThen (testWatches_agrees _ _ _ _)).line_eq

theorem execClosingMark_lineStep {t : State} (h : execClosingMark s = .next t) : LineStep s.line t.line := by
  unfold execClosingMark at h
  split at h
  · obtain rfl := Host.Outcome.next.inj h
    exact .moves .refl
  · split at h
    · cases h
    · obtain rfl := Host.Outcome.next.inj h
      obtain ⟨r, hpage, hline⟩ :=
        closeProgram_line ((s.atTime s.timer.markDue).onTimer fun t => { t with markPending := false })
      rw [(closeLane_agrees _).line_eq, hline]
      exact .created r hpage

/-! ### Resets -/

theorem execPowerOn_line {t : State} (h : execPowerOn s = .next t) : t.line = .init := by
  obtain rfl := Host.Outcome.next.inj h
  exact (Agrees.ite (resetEnds_agrees (powerOnState s)) (Agrees.refl _ _)).line_eq

theorem execResetLineAsserted_lineStep {t : State} (h : execResetLineAsserted s = .next t) :
    LineStep s.line t.line := by
  obtain rfl := Host.Outcome.next.inj h
  simp only
  split
  · exact .moves .refl
  · exact .moves .refl
  all_goals exact .reset

theorem execResetLineAsserted_line {t : State} (hrun : s.phase = .running)
    (h : execResetLineAsserted s = .next t) : t.line = .init := by
  obtain rfl := Host.Outcome.next.inj h
  simp only [State.setResetLine_phase, hrun]
  rfl

theorem execResetLineReleased_line {t : State} (h : execResetLineReleased s = .next t) : t.line = s.line := by
  obtain rfl := Host.Outcome.next.inj h
  simp only
  split
  · rfl
  · rfl
  · exact (resetEnds_agrees _).line_eq

/-- A line that leaves changes the Hold Line only by the restart that was to follow it. -/
theorem lineSent_line (p : Port) (line : Sending) :
    (lineSent p line s).line = match line.effect with
      | .restart _ => .init
      | .nothing | .portReset => s.line := by
  unfold lineSent
  cases line.effect
  · rfl
  · rfl
  · exact (resetEnds_agrees _).line_eq

theorem execReplySent_lineStep (p : Port) {t : State} (h : execReplySent p s = .next t) : LineStep s.line t.line := by
  obtain rfl := Host.Outcome.next.inj h
  split
  · exact .moves .refl
  · exact .moves .refl
  · rw [lineSent_line]
    split
    · exact .reset
    all_goals exact .moves .refl

theorem execReplySent_restart_line {p : Port} {line : Sending} {station : Nat} {t : State} (hrun : s.phase = .running)
    (hline : (s.ports.get p).sending = some line) (heffect : line.effect = .restart station)
    (h : execReplySent p s = .next t) : t.line = .init := by
  obtain rfl := Host.Outcome.next.inj h
  rw [hrun, hline]
  simp only [lineSent_line, heffect]

/-! ### Requests at their owners -/

theorem cutRequest_agrees (p : Port) (form : Request → Bool) : Agrees cutTouches s (cutRequest p form s) :=
  takeRouted_agrees s p form _ fun _ s => cutArrives_agrees s _

theorem paceArrives_agrees (j : PaceJob) : Agrees paceTouches s (paceArrives j s) :=
  .ite (takePace_agrees s j) (State.onPace_agrees s _).mono

theorem paceRequest_agrees (p : Port) (form : Request → Bool) : Agrees paceTouches s (paceRequest p form s) :=
  takeRouted_agrees s p form _ fun _ s => paceArrives_agrees s _

theorem answerWindow_agrees (p : Port) (r : Request) : Agrees [.store, .play, .ports] s (answerWindow p r s) := by
  unfold answerWindow
  split
  · exact (answer_agrees s p _ _).mono
  · split
    · exact (answer_agrees s p _ _).mono
    · exact (defineWindow_agrees s _ _).mono.andThen (answer_agrees _ p _ _)

theorem answerWindowReport_agrees (p : Port) (r : Request) : Agrees [.ports] s (answerWindowReport p r s) := by
  unfold answerWindowReport
  split <;> exact answer_agrees s p _ _

theorem answerLoad_agrees (p : Port) (r : Request) : Agrees [.store, .play, .lane, .ports] s (answerLoad p r s) := by
  have refused : ∀ w, Agrees [.store, .play, .lane, .ports] s (answer p w [] s) := fun w =>
    (answer_agrees s p w []).mono
  unfold answerLoad
  split
  · exact refused _
  · simp only
    split
    · exact refused _
    · refine .ite (refused _) (.ite (refused _) (.ite (refused _) ?_))
      exact (((putWindow_agrees s _ _).mono.andThen (clearReads_agrees _ _)).andThen
        (State.onLane_agrees _ _)).andThen (answer_agrees _ p _ _)

theorem answerClear_agrees (p : Port) (r : Request) : Agrees [.store, .play, .ports] s (answerClear p r s) := by
  have refused : ∀ w, Agrees [.store, .play, .ports] s (answer p w [] s) := fun w => (answer_agrees s p w []).mono
  have put : ∀ n w, Agrees [.store, .play, .ports] s (putWindow n w s) := fun n w => (putWindow_agrees s n w).mono
  unfold answerClear
  split
  · exact refused _
  · simp only
    split
    · exact refused _
    · exact refused _
    · exact (Agrees.ite (put _ _) (Agrees.refl _ s)).andThen (answer_agrees _ p _ _)
    all_goals exact ((put _ _).andThen (clearReads_agrees _ _)).andThen (answer_agrees _ p _ _)

theorem answerCounters_agrees (p : Port) (r : Request) : Agrees [.ports] s (answerCounters p r s) := by
  unfold answerCounters
  split
  · exact .ite (answer_agrees s p _ _) (answer_agrees s p _ _)
  · exact answer_agrees s p _ _

theorem answerCountersClear_agrees (p : Port) (r : Request) :
    Agrees [.ports, .counters] s (answerCountersClear p r s) := by
  unfold answerCountersClear
  split
  · exact .ite ((State.onCounters_agrees s _).mono.andThen (answer_agrees _ p _ _)) (answer_agrees s p _ _).mono
  · exact (answer_agrees s p _ _).mono

theorem answerPortReset_agrees (p : Port) (r : Request) : Agrees [.ports] s (answerPortReset p r s) :=
  .ite (answerWith_agrees s _ p _ _) (answer_agrees s p _ _)

theorem answerRestart_agrees (p : Port) (r : Request) : Agrees [.ports] s (answerRestart p r s) :=
  .ite (answerWith_agrees s _ p _ _) (answer_agrees s p _ _)

theorem answerParam_agrees (p : Port) (r : Request) : Agrees [.ports] s (answerParam p r s) := by
  unfold answerParam
  repeat' split
  all_goals exact answer_agrees s p _ _

theorem answerSet_agrees (p : Port) (r : Request) : Agrees [.settings, .ports] s (answerSet p r s) := by
  unfold answerSet
  split
  · exact (answer_agrees s p _ _).mono
  · exact (answer_agrees s p _ _).mono
  · exact (State.onSettings_agrees s _).mono.andThen (answer_agrees _ p _ _)

theorem removeStation_agrees (p : Port) (n : Nat) : Agrees [.ports] s (removeStation p n s) := by
  unfold removeStation
  split
  · exact answer_agrees s p _ _
  · exact (State.onPorts_agrees s _).andThen (answer_agrees _ p _ _)

theorem changeStation_agrees (p : Port) (n : Nat) (r : Request) : Agrees [.ports] s (changeStation p n r s) := by
  unfold changeStation
  split
  · exact answer_agrees s p _ _
  · split
    · exact answer_agrees s p _ _
    · exact (State.onPorts_agrees s _).andThen (answer_agrees _ p _ _)

theorem answerSetStation_agrees (p : Port) (r : Request) : Agrees [.ports] s (answerSetStation p r s) := by
  unfold answerSetStation
  split
  · exact answer_agrees s p _ _
  · exact .ite (removeStation_agrees s p _) (.ite (changeStation_agrees s p _ r) (answer_agrees s p _ _))

theorem answerSave_agrees (p : Port) (r : Request) : Agrees [.settings, .ports] s (answerSave p r s) := by
  have refused : ∀ w, Agrees [.settings, .ports] s (answer p w [] s) := fun w => (answer_agrees s p w []).mono
  unfold answerSave
  split
  · exact refused _
  · exact .ite (refused _) (.ite (refused _) (.ite (refused _)
      ((beginSave_agrees s _ _).mono.andThen (answer_agrees _ p _ _))))

theorem answerProfile_agrees (p : Port) (r : Request) :
    Agrees [.settings, .store, .play, .ports] s (answerProfile p r s) := by
  have refused : ∀ w, Agrees [.settings, .store, .play, .ports] s (answer p w [] s) := fun w =>
    (answer_agrees s p w []).mono
  unfold answerProfile
  split
  · exact refused _
  · exact .ite (refused _) (.ite (refused _) ((loadProfile_agrees s _).mono.andThen (answer_agrees _ p _ _)))

/-! ### Packets, characters and saves -/

theorem mediaIn_agrees (packet : Bytes) {t : State} (h : execMediaInPacket packet s = .next t) :
    Agrees [.ingest, .lane, .ports, .counters] s t := by
  obtain rfl := Host.Outcome.next.inj h
  refine .ite (Agrees.refl _ s) ?_
  split
  · exact (countMalformed_agrees s).mono
  · exact (countChecksum_agrees s).mono
  · exact sortPacket_agrees s _

theorem serialCharacter_agrees (sp : SerialPort) (c : Byte) {t : State} (h : execSerialCharacter sp c s = .next t) :
    Agrees [.ports] s t := by
  obtain rfl := Host.Outcome.next.inj h
  have ended := State.onPort_agrees s sp.port fun x => { x with line := .empty }
  exact .ite (Agrees.refl _ s) (.ite (.ite ended (ended.andThen (completeLine_agrees _ _ _))) (State.onPort_agrees s _ _))

theorem datagram_agrees (address : Nat) (content : Bytes) {t : State} (h : execDatagram address content s = .next t) :
    Agrees [.ports] s t := by
  obtain rfl := Host.Outcome.next.inj h
  exact .ite (Agrees.refl _ s) (completeLine_agrees s _ _)

theorem updateAnswer_agrees {t : State} (h : execUpdateAnswer s = .next t) : Agrees cutTouches s t := by
  obtain rfl := Host.Outcome.next.inj h
  split
  · exact (settle_agrees s _ _).andThen (takeQueued_agrees _ _)
  · exact Agrees.refl _ s

theorem saveComplete_agrees (readsBack : Bool) {t : State} (h : execSaveComplete readsBack s = .next t) :
    Agrees [.settings, .ports, .counters] s t := by
  obtain rfl := Host.Outcome.next.inj h
  split
  · exact .ite (saveDone_agrees s _) (saveFailed_agrees s _ _)
  · exact Agrees.refl _ s

theorem saveTimeout_agrees {t : State} (h : execSaveTimeout s = .next t) :
    Agrees [.now, .settings, .ports, .counters] s t := by
  obtain rfl := Host.Outcome.next.inj h
  split
  · exact (State.at_agrees s _).mono.andThen (saveFailed_agrees _ _ _)
  · exact Agrees.refl _ s

/-! ### The store's reports -/

theorem execStoreCompletion_lineMoves (grant : Nat) (report : StoreReport) {t : State}
    (h : execStoreCompletion grant report s = .next t) : LineMoves s.line t.line := by
  obtain rfl := Host.Outcome.next.inj h
  refine .ite .refl ?_
  split
  · exact .ite ((outstandingLands_agrees s _ _).lineMoves.trans (outstandingEnds_agrees _).lineMoves) .refl
  · exact .ite (accessReported_lineMoves s _ _) .refl
  · exact .refl

theorem execAccessTimeout_lineMoves {t : State} (h : execAccessTimeout s = .next t) : LineMoves s.line t.line := by
  obtain rfl := Host.Outcome.next.inj h
  refine .ite .refl ?_
  split
  · exact ((State.at_agrees s _).lineMoves.trans (landWrite_agrees _ _ _).lineMoves).trans
      (outstandingEnds_agrees _).lineMoves
  · exact (State.at_agrees s _).lineMoves.trans (endRequest_lineMoves _ _ _)
  · exact .refl

/-! ### Every command -/

/-- What a command that answers its request and nothing more does to the line: nothing. -/
theorem routed_lineStep {T : List Block} {p : Port} {form : Request → Bool} {take : Request → State → State} {t : State}
    (h : .next (takeRouted p form take s) = (.next t : Host.Outcome State Fault Refusal))
    (htake : ∀ r s, Agrees T s (take r s)) (hports : T.contains .ports = true := by decide)
    (hline : T.contains .line = false := by decide) : LineStep s.line t.line :=
  Host.Outcome.next.inj h ▸ (takeRouted_agrees s p form take htake hports).lineStep hline

theorem cutRequest_lineStep {p : Port} {form : Request → Bool} {t : State}
    (h : .next (cutRequest p form s) = (.next t : Host.Outcome State Fault Refusal)) : LineStep s.line t.line :=
  Host.Outcome.next.inj h ▸ (cutRequest_agrees s p form).lineStep

theorem paceRequest_lineStep {p : Port} {form : Request → Bool} {t : State}
    (h : .next (paceRequest p form s) = (.next t : Host.Outcome State Fault Refusal)) : LineStep s.line t.line :=
  Host.Outcome.next.inj h ▸ (paceRequest_agrees s p form).lineStep

/-- Every command makes changes of the line, creates one record in it, or resets it. -/
theorem exec_lineStep {c : Instr} {s t : State} (h : exec c s = .next t) : LineStep s.line t.line := by
  cases c with
  -- resets
  | powerOn => exact execPowerOn_line s h ▸ .reset
  | resetLineAsserted => exact execResetLineAsserted_lineStep s h
  | resetLineReleased => exact .moves (.of_eq (execResetLineReleased_line s h))
  | replySent p => exact execReplySent_lineStep s p h
  | powerLoss =>
    obtain rfl := Host.Outcome.next.inj h
    exact .moves .refl
  -- pulses and the closing mark
  | linePulse => exact .moves (execLinePulse_lineMoves s h)
  | lossWatchExpiry => exact .moves (execLossWatchExpiry_lineMoves s h)
  | freeRunExpiry => exact .moves (execFreeRunExpiry_lineMoves s h)
  | closingMark => exact execClosingMark_lineStep s h
  -- packets and characters
  | mediaInPacket packet => exact (mediaIn_agrees s packet h).lineStep
  | packetSent =>
    obtain rfl := Host.Outcome.next.inj h
    exact (Agrees.ite (State.onPack_agrees s _) (Agrees.refl _ s)).lineStep
  | serialCharacter sp c => exact (serialCharacter_agrees s sp c h).lineStep
  | datagram address content => exact (datagram_agrees s address content h).lineStep
  -- the store
  | storeCompletion grant report => exact .moves (execStoreCompletion_lineMoves s grant report h)
  | accessTimeout => exact .moves (execAccessTimeout_lineMoves s h)
  -- messages between the blocks
  | dispositionUpdate =>
    obtain rfl := Host.Outcome.next.inj h
    split
    · exact .moves (applyUpdate_lineMoves s _)
    · exact .moves .refl
  | updateAnswer => exact (updateAnswer_agrees s h).lineStep
  | shedInstruction =>
    obtain rfl := Host.Outcome.next.inj h
    exact .moves (.ite (takeInstruction_lineMoves s) .refl)
  | shedAnswer =>
    obtain rfl := Host.Outcome.next.inj h
    exact .moves (.ite (takeShedCount_lineMoves s) .refl)
  | saveComplete readsBack => exact (saveComplete_agrees s readsBack h).lineStep
  | saveTimeout => exact (saveTimeout_agrees s h).lineStep
  -- requests of the Cut Engine and of the Pacing Controller
  | dump p => exact cutRequest_lineStep s h
  | markIn p => exact cutRequest_lineStep s h
  | markOut p => exact cutRequest_lineStep s h
  | cut p => exact cutRequest_lineStep s h
  | amend p => exact cutRequest_lineStep s h
  | revoke p => exact cutRequest_lineStep s h
  | cuts p => exact cutRequest_lineStep s h
  | watch p => exact cutRequest_lineStep s h
  | watchReport p => exact cutRequest_lineStep s h
  | unwatch p => exact cutRequest_lineStep s h
  | targetGlide p => exact paceRequest_lineStep s h
  | targetJump p => exact paceRequest_lineStep s h
  | engage p => exact paceRequest_lineStep s h
  | bypass p => exact paceRequest_lineStep s h
  -- requests of the other owners
  | slice p => exact routed_lineStep s h fun r s => answerSlice_agrees s p r
  | status p => exact routed_lineStep s h fun r s => answerStatus_agrees s p r
  | window p => exact routed_lineStep s h fun r s => answerWindow_agrees s p r
  | windowReport p => exact routed_lineStep s h fun r s => answerWindowReport_agrees s p r
  | load p => exact routed_lineStep s h fun r s => answerLoad_agrees s p r
  | clear p => exact routed_lineStep s h fun r s => answerClear_agrees s p r
  | counters p => exact routed_lineStep s h fun r s => answerCounters_agrees s p r
  | countersClear p => exact routed_lineStep s h fun r s => answerCountersClear_agrees s p r
  | portReset p => exact routed_lineStep s h fun r s => answerPortReset_agrees s p r
  | param p => exact routed_lineStep s h fun r s => answerParam_agrees s p r
  | set p => exact routed_lineStep s h fun r s => answerSet_agrees s p r
  | setStation p => exact routed_lineStep s h fun r s => answerSetStation_agrees s p r
  | save p => exact routed_lineStep s h fun r s => answerSave_agrees s p r
  | profile p => exact routed_lineStep s h fun r s => answerProfile_agrees s p r
  | restart p => exact routed_lineStep s h fun r s => answerRestart_agrees s p r

/-- Every step makes changes of the line, creates one record in it, or resets it. -/
theorem step_lineStep {s t : State} (h : step s = .next t) : LineStep s.line t.line := by
  unfold step at h
  split at h
  · obtain rfl := Host.Outcome.next.inj h
    exact .moves .refl
  · rename_i rest _
    exact exec_lineStep (s := s.withPending rest) h

end Sys2Proof.Machine
end

section
/-! STATUS and the disposition update at the Hold Line (R54, R62). -/

namespace Sys2Proof.Machine

set_option Elab.async false

/-! ### STATUS (R62) -/

section
variable (s : State) (p : Port)

/-- A port routes a STATUS without asking who sends it. -/
theorem takeLine_status_current {l : QueuedLine} {r : Request} (hr : l.request = some r) (hw : r.word = .status) :
    ((takeLine p l s).ports.get p).current = some ⟨r, false⟩ := by
  simp [takeLine, hr, hw, route]

/-- An answer given once the owner has been reached, as the port's side sees it. -/
theorem answer_reached (r : Request) (w : ResultWord) (fs : List Field) :
    OnlyReplied p r w fs s (answer p w fs (reached s p r)) := by
  refine ⟨?_, (reached_agrees s p r).andThen (answer_agrees _ p w fs),
    (reached_others s p r).trans (answerWith_others _ p .nothing w fs)⟩
  have replied := answer_replied (reached s p r) p w fs ⟨r, true⟩ (reached_current s p r)
  rwa [Replied, RepliedWith, reached_outgoing] at replied

/-- A record counts in H by its disposition, its lifecycle and its skipped mark (R49). -/
theorem Rec.waits_iff (r : Rec) :
    r.waits = true ↔ (r.fields.disp ≠ .drop ∧ r.fields.disp ≠ .shed) ∧ r.life ≠ .emitting ∧ r.skipped = false := by
  have kept : r.kept = true ↔ r.fields.disp ≠ .drop ∧ r.fields.disp ≠ .shed := by
    unfold Rec.kept
    cases r.fields.disp <;> simp [Disposition.kept]
  simp [Rec.waits, kept, and_assoc]

/-- H is the number of records that wait. -/
theorem HoldLine.held_eq (l : HoldLine) :
    l.held = (l.records.filter fun x =>
      (x.fields.disp ≠ .drop ∧ x.fields.disp ≠ .shed) ∧ x.life ≠ .emitting ∧ x.skipped = false).length := by
  rw [HoldLine.held, List.countP_eq_length_filter]
  congr 2
  funext x
  rw [Bool.eq_iff_iff, Rec.waits_iff, decide_eq_true_iff]

theorem Mode.text_eq (m : Mode) : m.text = if m = .engaged then "ENGAGED" else "BYPASS" := by
  cases m <;> rfl

theorem execStatus_of {r : Request} (h : Routed s p r) (hw : r.word = .status) :
    exec (.status p) s = .next (answerStatus p r (reached s p r)) :=
  congrArg Host.Outcome.next (takeRouted_of s p h (by simp [hw]))

/-- STATUS reads nothing that the port's mark of a reached owner could change. -/
theorem statusFields_reached (r : Request) : statusFields (reached s p r) = statusFields s := rfl

/-- The free pages stand in STATUS under FREE. -/
theorem statusFields_free :
    statusFields s = (statusFields s).take 10 ++ ("FREE", .num s.line.freePool.length) :: (statusFields s).drop 11 := rfl

theorem status_replied {r : Request} (h : Routed s p r) (hw : r.word = .status) (hk : r.keys = []) :
    ∃ t, exec (.status p) s = .next t ∧ OnlyReplied p r .ok (statusFields s) s t := by
  refine ⟨_, execStatus_of s p h hw, ?_⟩
  rw [answerStatus, hk, List.isEmpty_nil, if_pos rfl, statusFields_reached]
  exact answer_reached s p r _ _

theorem status_refused {r : Request} (h : Routed s p r) (hw : r.word = .status) (hk : r.keys ≠ []) :
    ∃ t, exec (.status p) s = .next t ∧ OnlyReplied p r .bad [] s t := by
  refine ⟨_, execStatus_of s p h hw, ?_⟩
  rw [answerStatus, if_neg (by simpa using hk)]
  exact answer_reached s p r _ _

end

/-- Settles O20: the port routes a STATUS before it asks for the station, and the owner's answer carries its figures. -/
theorem statusReportsTheDelay : Obligations.StatusReportsTheDelay := by
  refine ⟨fun s p l r hr hw => takeLine_status_current s p hr hw, fun s p r h hw hk => status_refused s p h hw hk, ?_⟩
  intro s p r h hw hk
  obtain ⟨t, ht, replied, agrees, others⟩ := status_replied s p h hw hk
  refine ⟨t, ht, agrees, others, ?_⟩
  convert replied using 1
  rw [statusFields, HoldLine.held_eq, Mode.text_eq]
  rfl

/-! ### The disposition update (R54) -/

/-- A record that is amendable and not SHED takes what the update gives its ISN. -/
theorem HoldLine.update_records (l : HoldLine) (u : Update) :
    (l.update u).records = l.records.map fun r =>
      match u.items.find? fun a => a.isn = r.isn with
      | some a => if l.amendable r = true ∧ r.fields.disp ≠ .shed then r.assign a else r
      | none => r := by
  refine List.map_congr_left fun r _ => ?_
  unfold Update.forRec
  by_cases hr : l.amendable r = true ∧ r.fields.disp ≠ .shed
  · rw [if_pos (by simpa using hr)]
    cases u.items.find? fun a => a.isn = r.isn <;> simp [hr]
  · rw [if_neg (by simpa using hr)]
    cases u.items.find? fun a => a.isn = r.isn <;> simp [hr]

/-- The forward distance shrinks by one with each ISN, and starts anew behind the boundary. -/
theorem fwd_add (a b : U32) {i : Nat} (hi : i < 4294967296) :
    fwd (a + BitVec.ofNat 32 i) b = if i ≤ fwd a b then fwd a b - i else fwd a b + 4294967296 - i := by
  split
  all_goals
    unfold fwd at *
    bv_omega

/-- The two forward distances between two counts make up the circle. -/
theorem fwd_comm (a b : U32) : fwd b a = if fwd a b = 0 then 0 else 4294967296 - fwd a b := by
  split
  all_goals
    unfold fwd at *
    bv_omega

/-- Of an update's ISNs, which do not lie further than the line is long from the boundary, the late ones come first. -/
theorem late_iff_lt_lateCount {first boundary : Isn} {count i : Nat} (hcount : count ≤ 4096)
    (hnear : fwd first boundary ≤ 4096 ∨ fwd boundary first ≤ 4096) (hi : i < count) :
    isAfter boundary (first + BitVec.ofNat 32 i) = true ↔ i < lateCount first count boundary := by
  have hlt : fwd first boundary < 4294967296 := (boundary - first).isLt
  rw [fwd_comm first boundary] at hnear
  simp only [isAfter, lateCount, fwd_add first boundary (i := i) (by omega), Bool.and_eq_true, decide_eq_true_eq]
  split_ifs at * <;> omega

/-- Where those that have a property come first, the first without it heads the rest. -/
theorem filter_find?_append {α : Type} {f : α → Bool} {xs ys : List α} (hxs : ∀ x ∈ xs, f x = true)
    (hys : ∀ y ∈ ys, f y = false) :
    (xs ++ ys).filter f = xs ∧ (xs ++ ys).find? (fun x => !f x) = ys.head? := by
  constructor
  · rw [List.filter_append, List.filter_eq_self.mpr hxs, List.filter_eq_nil_iff.mpr (by simpa using hys),
      List.append_nil]
  · rw [List.find?_append, List.find?_eq_none.mpr (by simpa using hxs), Option.none_or]
    cases ys with
    | nil => rfl
    | cons y ys => rw [List.find?_cons_of_pos (by simpa using hys y List.mem_cons_self), List.head?_cons]

/-- The Hold Line's answer counts the ISNs named that lie before A, and names the first that does not (R54). -/
theorem answerAt_eq (u : Update) {boundary : Isn} (hcount : u.count ≤ 4096)
    (hnear : fwd u.first boundary ≤ 4096 ∨ fwd boundary u.first ≤ 4096) :
    let named := (List.range u.count).map fun i => u.first + BitVec.ofNat 32 i
    u.answerAt boundary =
      ⟨(named.filter fun i => isAfter boundary i).length, named.find? fun i => !isAfter boundary i⟩ := by
  intro named
  have late := fun i => late_iff_lt_lateCount (i := i) hcount hnear
  have hle : lateCount u.first u.count boundary ≤ u.count := by
    unfold lateCount
    split <;> omega
  unfold Update.answerAt
  generalize lateCount u.first u.count boundary = k at late hle
  obtain ⟨m, hm⟩ := Nat.exists_eq_add_of_le hle
  have hnamed : named = (List.range k).map (fun i => u.first + BitVec.ofNat 32 i)
      ++ (List.range m).map fun i => u.first + BitVec.ofNat 32 (k + i) := by
    simp only [named, hm, List.range_add, List.map_append, List.map_map, Function.comp_def]
  have hlate : ∀ i ∈ List.range k, isAfter boundary (u.first + BitVec.ofNat 32 i) = true := fun i hi => by
    rw [List.mem_range] at hi
    exact (late i (by omega)).mpr hi
  have hrest : ∀ i ∈ List.range m, isAfter boundary (u.first + BitVec.ofNat 32 (k + i)) = false := fun i hi => by
    rw [List.mem_range] at hi
    rw [Bool.eq_false_iff, ne_eq, late (k + i) (by omega)]
    omega
  obtain ⟨hfilter, hfind⟩ := filter_find?_append (f := fun i => isAfter boundary i)
    (List.forall_mem_map.mpr hlate) (List.forall_mem_map.mpr hrest)
  rw [hnamed, hfilter, hfind, List.length_map, List.length_range, List.head?_map, List.head?_range]
  cases m with
  | zero => simp [hm]
  | succ m => simp [hm]

/-- What the Hold Line does with an update; the Playout Unit hears of it behind (R54, R115). -/
theorem applyUpdate_spec (s : State) (u : Update) :
    (applyUpdate u s).line = s.line.update u
      ∧ (applyUpdate u s).cuts = { s.cuts with update := none, answer := some (u.answerAt s.line.boundary) } := by
  unfold applyUpdate
  exact ⟨(takeChanges_agrees _ _ _).line_eq, takeChanges_agrees _ _ _ .cuts rfl⟩

/-- Settles O17: the records by the line's update, and the answer from the ISNs named that are late. -/
theorem dispositionUpdateIsTakenWhole : Obligations.DispositionUpdateIsTakenWhole := by
  intro s u hrun hu hcount hnear named
  obtain ⟨hline, hcuts⟩ := applyUpdate_spec s u
  refine ⟨applyUpdate u s, ?_, ?_, ?_, ?_, ?_, applyUpdate_agrees s u⟩
  · simp [exec, execDispositionUpdate, State.runs, hrun, hu]
  · rw [hline, HoldLine.update_records]
    rfl
  · rw [hcuts, answerAt_eq u hcount hnear]
  · rw [hline]
    rfl
  · rw [hline]
    rfl

end Sys2Proof.Machine
end

section
/-! The pages of R46: each change of the Hold Line returns pages to the tail of the free pool and loses none, and only a
new record takes one, from the head. -/

namespace Sys2Proof.Machine

set_option Elab.async false

/-! ### Pages kept -/

/-- The pages of the line, free and held. -/
def HoldLine.pages (l : HoldLine) : List Nat := l.freePool ++ l.records.filterMap (·.page)

theorem pagesOk_iff (s : State) : PagesOk s ↔ s.line.pages.Perm (List.range 3840) := Iff.rfl

/-- The pool has grown at its tail only, and the pages are the same ones. That no page stands twice is what makes the
fault of a write return it once. -/
def HoldLine.KeepsPages (l l' : HoldLine) : Prop :=
  (∃ returned, l'.freePool = l.freePool ++ returned) ∧ (l.pages.Nodup → l'.pages.Perm l.pages)

theorem HoldLine.KeepsPages.refl (l : HoldLine) : l.KeepsPages l := ⟨⟨[], by simp⟩, fun _ => .refl _⟩

theorem HoldLine.KeepsPages.trans {l m n : HoldLine} (h : l.KeepsPages m) (g : m.KeepsPages n) : l.KeepsPages n := by
  obtain ⟨⟨xs, hxs⟩, hperm⟩ := h
  obtain ⟨⟨ys, hys⟩, gperm⟩ := g
  refine ⟨⟨xs ++ ys, by rw [hys, hxs, List.append_assoc]⟩, fun hl => ?_⟩
  have hm := hperm hl
  exact (gperm (hm.nodup_iff.mpr hl)).trans hm

/-- A change of records that leaves each its page. -/
theorem HoldLine.KeepsPages.of_map {l l' : HoldLine} (f : Rec → Rec) (hpage : ∀ r, (f r).page = r.page)
    (hrecords : l'.records = l.records.map f) (hpool : l'.freePool = l.freePool) : l.KeepsPages l' := by
  have hpages : l'.pages = l.pages := by
    rw [HoldLine.pages, HoldLine.pages, hrecords, hpool, List.filterMap_map, Function.comp_def]
    simp only [hpage]
  exact ⟨⟨[], by simp [hpool]⟩, fun _ => .of_eq hpages⟩

theorem HoldLine.modify_keepsPages (l : HoldLine) (i : Isn) {f : Rec → Rec} (hpage : ∀ r, (f r).page = r.page) :
    l.KeepsPages (l.modify i f) :=
  .of_map _ (fun r => by split <;> simp [hpage]) rfl rfl

theorem HoldLine.modifyNamed_keepsPages (l : HoldLine) (i : Option Isn) {f : Rec → Rec}
    (hpage : ∀ r, (f r).page = r.page) : l.KeepsPages (l.modifyNamed i f) := by
  cases i with
  | none => exact .refl l
  | some i => exact l.modify_keepsPages i hpage

theorem HoldLine.update_keepsPages (l : HoldLine) (u : Update) : l.KeepsPages (l.update u) :=
  .of_map _ (fun r => by split <;> rfl) rfl rfl

theorem HoldLine.shed_keepsPages (l : HoldLine) (isns : List Isn) : l.KeepsPages (l.shed isns) :=
  .of_map _ (fun r => by split <;> rfl) rfl rfl

/-! ### The sweep and the report (R50, R52) -/

theorem sweepRecords_append : ∀ rs : List Rec, (sweepRecords rs).1 ++ (sweepRecords rs).2 = rs
  | [] => rfl
  | r :: rs => by
    unfold sweepRecords
    split
    · exact congrArg (r :: ·) (sweepRecords_append rs)
    · rfl

/-- The sweep moves the pages of the records it takes to the tail of the pool. -/
theorem HoldLine.sweep_keepsPages (l : HoldLine) : l.KeepsPages l.sweep := by
  refine ⟨⟨_, rfl⟩, fun _ => .of_eq ?_⟩
  change (l.freePool ++ (sweepRecords l.records).1.filterMap (·.page)) ++ (sweepRecords l.records).2.filterMap (·.page) = _
  rw [List.append_assoc, ← List.filterMap_append, sweepRecords_append, HoldLine.pages]

theorem HoldLine.commitTo_keepsPages (l : HoldLine) (point : Isn) : l.KeepsPages (l.commitTo point) := by
  unfold HoldLine.commitTo
  split
  · exact .of_map _ (fun r => by split <;> rfl) rfl rfl
  · exact .refl l

theorem HoldLine.reportMarks_keepsPages (l : HoldLine) (rep : Report) : l.KeepsPages (l.reportMarks rep) := by
  have marked := ((l.modifyNamed_keepsPages rep.ended (f := fun r => { r with ended := true }) fun _ => rfl).trans
    (HoldLine.modifyNamed_keepsPages _ rep.skipped (f := fun r => { r.commit with skipped := true }) fun _ => rfl)).trans
    (HoldLine.modifyNamed_keepsPages _ rep.begun (f := fun r => { r with committed := true, life := .emitting })
      fun _ => rfl)
  unfold HoldLine.reportMarks
  simp only
  split
  · exact marked
  · exact marked.trans (HoldLine.commitTo_keepsPages _ _)

theorem HoldLine.report_keepsPages (l : HoldLine) (rep : Report) : l.KeepsPages (l.report rep) :=
  (l.reportMarks_keepsPages rep).trans (HoldLine.sweep_keepsPages _)

/-! ### The end of an ingest write (R45) -/

/-- What the end of a write to a page makes of a record. -/
def Rec.writeEnded (page : Nat) (done : Bool) (r : Rec) : Rec :=
  if r.writesTo page then
    if done then r.written else { r.written with cond := .damaged, page := none }
  else r

/-- A write's end is the records' part, the page of a fault at the tail of the pool, and the sweep. -/
theorem HoldLine.writeCompleted_eq (l : HoldLine) (page : Nat) (done : Bool) :
    l.writeCompleted page done = HoldLine.sweep
      { l with
        records := l.records.map (Rec.writeEnded page done)
        freePool := if !done && l.records.any (Rec.writesTo page) then l.freePool ++ [page] else l.freePool } := rfl

theorem Rec.writeEnded_of_not (page : Nat) (done : Bool) {r : Rec} (h : r.writesTo page = false) :
    r.writeEnded page done = r := by
  simp [Rec.writeEnded, h]

theorem Rec.writeEnded_done_page (page : Nat) (r : Rec) : (r.writeEnded page true).page = r.page := by
  unfold Rec.writeEnded
  split <;> rfl

theorem Rec.writeEnded_fault_page {page : Nat} {r : Rec} (h : r.writesTo page = true) :
    (r.writeEnded page false).page = none := by
  simp [Rec.writeEnded, h]

theorem Rec.page_of_writesTo {page : Nat} {r : Rec} (h : r.writesTo page = true) : r.page = some page := by
  simp only [Rec.writesTo, Bool.and_eq_true, decide_eq_true_eq] at h
  exact h.2

/-- Records none of which is written to the page stay as they are. -/
theorem map_writeEnded_of_not_any (page : Nat) (done : Bool) {rs : List Rec}
    (h : rs.any (Rec.writesTo page) = false) : rs.map (Rec.writeEnded page done) = rs := by
  rw [List.any_eq_false] at h
  exact (List.map_congr_left fun r hr => Rec.writeEnded_of_not page done (Bool.eq_false_iff.mpr (h r hr))).trans
    (List.map_id rs)

/-- A fault takes the page from the one record that is written to it. -/
theorem filterMap_page_fault {page : Nat} {rs : List Rec} (hnodup : (rs.filterMap (·.page)).Nodup)
    (hwriter : rs.any (Rec.writesTo page) = true) :
    (page :: (rs.map (Rec.writeEnded page false)).filterMap (·.page)).Perm (rs.filterMap (·.page)) := by
  induction rs with
  | nil => simp at hwriter
  | cons r rs ih =>
    rw [List.map_cons, List.filterMap_cons, List.filterMap_cons]
    cases hw : r.writesTo page with
    | true =>
      have hpage := Rec.page_of_writesTo hw
      rw [List.filterMap_cons_some hpage, List.nodup_cons] at hnodup
      have others : rs.any (Rec.writesTo page) = false := by
        rw [List.any_eq_false]
        exact fun x hx hwx => hnodup.1 (List.mem_filterMap.mpr ⟨x, hx, Rec.page_of_writesTo hwx⟩)
      rw [Rec.writeEnded_fault_page hw, hpage, map_writeEnded_of_not_any page false others]
    | false =>
      have hrest : rs.any (Rec.writesTo page) = true := by simpa [hw] using hwriter
      rw [Rec.writeEnded_of_not page false hw]
      cases hpage : r.page with
      | none => exact ih (by simpa [List.filterMap_cons, hpage] using hnodup) hrest
      | some q =>
        rw [List.filterMap_cons_some hpage, List.nodup_cons] at hnodup
        exact (List.Perm.swap q page _).trans ((ih hnodup.2 hrest).cons q)

theorem HoldLine.writeCompleted_keepsPages (l : HoldLine) (page : Nat) (done : Bool) :
    l.KeepsPages (l.writeCompleted page done) := by
  rw [HoldLine.writeCompleted_eq]
  refine HoldLine.KeepsPages.trans ?_ (HoldLine.sweep_keepsPages _)
  cases done with
  | true => exact .of_map _ (Rec.writeEnded_done_page page) rfl rfl
  | false =>
    cases hw : l.records.any (Rec.writesTo page) with
    | false =>
      rw [map_writeEnded_of_not_any page false hw]
      exact .refl l
    | true =>
      refine ⟨⟨[page], rfl⟩, fun hnodup => ?_⟩
      have moved := filterMap_page_fault (List.nodup_append.mp hnodup).2.1 hw
      change (l.freePool ++ [page] ++ (l.records.map (Rec.writeEnded page false)).filterMap (·.page)).Perm _
      rw [List.append_assoc]
      exact moved.append_left l.freePool

/-! ### Every step -/

theorem LineMove.keepsPages {l l' : HoldLine} (h : LineMove l l') : l.KeepsPages l' := by
  cases h with
  | noticed i => exact l.modify_keepsPages i fun _ => rfl
  | damaged i => exact l.modify_keepsPages i fun _ => rfl
  | update u => exact l.update_keepsPages u
  | shed isns => exact l.shed_keepsPages isns
  | written page done => exact l.writeCompleted_keepsPages page done
  | report rep => exact l.report_keepsPages rep

theorem LineMoves.keepsPages {l l' : HoldLine} (h : LineMoves l l') : l.KeepsPages l' := by
  induction h with
  | refl => exact .refl l
  | tail _ move ih => exact ih.trans move.keepsPages

/-- One page at most has left the head of the pool, and pages have come back at its tail. -/
def HoldLine.PoolMoves (l l' : HoldLine) : Prop :=
  ∃ claimed kept returned, claimed.length ≤ 1 ∧ l.freePool = claimed ++ kept ∧ l'.freePool = kept ++ returned

theorem HoldLine.create_pages {l : HoldLine} {r : Rec} (hpage : r.page = none ∨ r.page = l.freePool.head?) :
    (l.create r).pages.Perm l.pages ∧ l.PoolMoves (l.create r) := by
  have held : (l.create r).records.filterMap (·.page) = l.records.filterMap (·.page) ++ r.page.toList := by
    cases h : r.page <;> simp [HoldLine.create, h]
  cases h : r.page with
  | none =>
    have hpool : (l.create r).freePool = l.freePool := by simp [HoldLine.create, h]
    refine ⟨.of_eq ?_, [], l.freePool, [], by simp, rfl, by simp [hpool]⟩
    simp [HoldLine.pages, held, hpool, h]
  | some p =>
    have hhead : l.freePool.head? = some p := (hpage.resolve_left (by simp [h])).symm.trans h
    obtain ⟨rest, hrest⟩ := List.head?_eq_some_iff.mp hhead
    have hpool : (l.create r).freePool = rest := by simp [HoldLine.create, h, hrest]
    refine ⟨?_, [p], rest, [], by simp, hrest, by simp [hpool]⟩
    rw [HoldLine.pages, HoldLine.pages, held, hpool, h, hrest, Option.toList_some, ← List.append_assoc]
    exact List.perm_append_singleton p _

/-- What a step does to the pages: a reset frees them all, and every other step keeps them. -/
theorem LineStep.pages {l l' : HoldLine} (h : LineStep l l') (hnodup : l.pages.Nodup) :
    l' = .init ∨ (l'.pages.Perm l.pages ∧ l.PoolMoves l') := by
  cases h with
  | reset => exact .inl rfl
  | created r hpage => exact .inr (HoldLine.create_pages hpage)
  | moves h =>
    obtain ⟨⟨returned, hpool⟩, hperm⟩ := h.keepsPages
    exact .inr ⟨hperm hnodup, [], l.freePool, returned, by simp, rfl, hpool⟩

/-! ### The free pool (R46) -/

theorem PagesOk.nodup {s : State} (h : PagesOk s) : s.line.pages.Nodup :=
  ((pagesOk_iff s).mp h).nodup_iff.mpr List.nodup_range

theorem HoldLine.pages_length (l : HoldLine) :
    l.pages.length = l.freePool.length + l.records.countP fun r => r.page.isSome := by
  rw [HoldLine.pages, List.length_append, List.length_filterMap_eq_countP]

theorem PagesOk.length {s : State} (h : PagesOk s) :
    s.line.freePool.length + s.line.records.countP (fun r => r.page.isSome) = 3840 := by
  rw [← HoldLine.pages_length, ((pagesOk_iff s).mp h).length_eq, List.length_range]

theorem HoldLine.init_eq : HoldLine.init = ⟨[], 0, List.range 3840, none⟩ := rfl

theorem HoldLine.init_pages : HoldLine.init.pages = List.range 3840 := by
  simp [HoldLine.pages, HoldLine.init_eq]

theorem PagesOk.step {s t : State} (hok : PagesOk s) (h : step s = .next t) :
    PagesOk t ∧ (t.line = .init ∨ s.line.PoolMoves t.line) := by
  rcases (step_lineStep h).pages hok.nodup with hline | ⟨hperm, hpool⟩
  · exact ⟨(pagesOk_iff t).mpr (.of_eq (hline ▸ HoldLine.init_pages)), .inl hline⟩
  · exact ⟨(pagesOk_iff t).mpr (hperm.trans hok), .inr hpool⟩

/-- Settles O55: a step makes changes of the line, each of which keeps the pages, or creates a record with the page at the
head, or resets the line. -/
theorem pagesStayAccountedFor : Obligations.PagesStayAccountedFor := by
  intro s hok
  have hlength := hok.length
  refine ⟨(List.nodup_append.mp hok.nodup).1, by omega, hlength, fun t => hok.step, ?resets, ?status⟩
  case resets =>
    rintro t (h | ⟨hrun, h⟩ | ⟨p, line, station, hrun, hline, heffect, h⟩)
    · exact execPowerOn_line s h
    · exact execResetLineAsserted_line s hrun h
    · exact execReplySent_restart_line s hrun hline heffect h
  case status =>
    intro p r h hw hk
    obtain ⟨t, ht, replied, -⟩ := status_replied s p h hw hk
    exact ⟨t, _, _, ht, statusFields_free s ▸ replied⟩

end Sys2Proof.Machine
end
